-- ==== Sys2Proof/Word.lean ====
section
/-! DEFINITION. The words of the block: stream bytes, message ids, total lengths, checksums (spec/00_scope.md R6, R7).
Every value is an unsigned bit vector of a stated width; there is no signed value anywhere in the block. -/

namespace Sys2Proof

/-- A stream byte, `BYTE_W` = 8 bits (R6). Bit 7 is the "high bit". -/
abbrev Byte := BitVec 8

/-- A message id, `ID_W` = 7 bits (R6, R16): the header byte without its high bit. -/
abbrev MsgId := BitVec 7

/-- A total length or a byte count of a frame, `LEN_W` = 14 bits (R6). -/
abbrev Len := BitVec 14

/-- A checksum, `CS_W` = 7 bits (R6). -/
abbrev Sum7 := BitVec 7

/-- The seven payload bytes `b0 .. b6` of a BWTIME frame, wire bytes 3 to 9 (R53). -/
structure BwPayload where
  b0 : Byte
  b1 : Byte
  b2 : Byte
  b3 : Byte
  b4 : Byte
  b5 : Byte
  b6 : Byte
  deriving DecidableEq, Repr

end Sys2Proof
end

