-- ==== Sys2Proof/Config.lean ====
section
/-! DEFINITION. The implementation parameters of the block (spec/00_scope.md R6), its one open parameter
(`ACK_SUBKIND`, spec/92_eei_decisions.md D18) and the form in which the host presents an instruction. -/

namespace Sys2Proof

/-- What an acknowledgement says, selected by the low 7 bits of `ack1` (spec/44_clock_unpacker.md R137). -/
inductive AckSubKind where
  | ready
  | buttonPressed
  | modeQuery
  | commandAck
  | unlisted
  deriving DecidableEq, Repr, Inhabited

namespace Config

/-- `HDR`: header bytes per frame (R6). -/
abbrev hdr : Nat := 3
/-- `MIN_LEN`: least legal total length (R6). -/
abbrev minLen : Nat := 3
/-- `MAX_LEN`: greatest legal total length (R6). -/
abbrev maxLen : Nat := 0x3FFF
/-- `MAX_PAYLOAD = MAX_LEN - HDR` (R6). -/
abbrev maxPayload : Nat := 0x3FFC
/-- `RX_BUF_SIZE`: cells of the payload buffer (R6, R30, D29). -/
abbrev rxBufSize : Nat := 16380
/-- `CS_MOD`: checksum modulus (R6). -/
abbrev csMod : Nat := 128
/-- `BATT_MIN`: least total length of a battery-status frame (R6, R119, D9; log 15). -/
abbrev battMin : Nat := 7
/-- `BATT_MAX`: greatest total length of a battery-status frame (R6, R119, D9; log 15). -/
abbrev battMax : Nat := 11

/-- `ACK_SUBKIND` off its one fixed entry: the lookup table is not in the source, so nothing is known of it
(R137, D18, spec/91_not_in_source.md N4). A free value: it has no body. DESIGN CHOICE, safe, log 9. -/
opaque ackSubkindOpen : BitVec 7 → AckSubKind

end Config

/-- The four code spaces ("format") of spec/opcode_table.json: the operations of the host port (R46), the frames of the
receive stream by header byte (R57), the command bytes (R56) and the clock sub-command bytes (R168). Their codes
overlap as numbers, so a presentation names its space (log 2). -/
inductive Format where
  | op
  | msg
  | cmd
  | clksub
  deriving DecidableEq, Repr

/-- One thing the host presents: the code space and the bytes, first byte first (log 1, log 3). -/
structure Presented where
  format : Format
  bytes  : List Byte
  deriving DecidableEq, Repr

end Sys2Proof
end

