-- ==== Sys2Proof/Machine/Operands.lean ====
section
/-! DEFINITION. The operand forms of the block: the fields of a header byte, of the length bytes, of the port's counts, of
the bus address and of the BWTIME payload (spec/30_encoding.md R47 to R56, R64; spec/41_frame_encoder.md R86, R87). -/

namespace Sys2Proof.Machine

/-- `d[7]`, the high bit (R7). -/
def highBit (d : Byte) : Bool := d[7]

/-- `d[6:0]` (R7). -/
def low7 (d : Byte) : BitVec 7 := d.setWidth 7

/-- `zext_8(v)` of a 7-bit value (R7, R99). -/
def zext8 (v : BitVec 7) : Byte := v.setWidth 8

/-- The header byte `0x80 | id` (R48). -/
def headerByte (id : MsgId) : Byte := 0x80 ||| zext8 id

/-- `d[6:0] << 7`: length byte 1 gives bits 13 to 7 of the length (R51, R70). -/
def lenHigh (d : Byte) : Len := (low7 d).setWidth 14 <<< 7

/-- `d[6:0]`: length byte 2 gives bits 6 to 0 of the length (R51, R72). -/
def lenLow (d : Byte) : Len := (low7 d).setWidth 14

/-- `LLH_SEVEN(L) = (L >> 7) & 0x7F` (R86); bits above 13 of a wider `L` are dropped (U18). -/
def llhSeven (L : Nat) : Byte := BitVec.ofNat 8 ((L >>> 7) &&& 0x7F)

/-- `LLL_SEVEN(L) = L & 0x7F` (R87). -/
def lllSeven (L : Nat) : Byte := BitVec.ofNat 8 (L &&& 0x7F)

/-- The cell of `rx_buf` that the payload byte of wire index `cnt` goes to: `cnt - 3` (R41, R73). -/
def cellIndex (cnt : Len) : Len := cnt - 3

/-- High byte of a 14-bit operand of the port, written as four hex digits (spec/95_test_vectors.md Part 3; log 3). -/
def portHigh (n : Nat) : Byte := BitVec.ofNat 8 (n >>> 8)

/-- Low byte of a 14-bit operand of the port (log 3). -/
def portLow (n : Nat) : Byte := BitVec.ofNat 8 n

/-- The 14-bit operand whose two port bytes are `hi`, `lo` (log 3). -/
def portWord (hi lo : Byte) : Nat := 256 * hi.toNat + lo.toNat

/-- A bus command byte, "bus command id OR 0x80": its high bit is set (R55, R177). -/
def busCommandByte (id : BitVec 7) : Byte := 0x80 ||| zext8 id

/-- Split of a 14-bit bus address, high 7 bits (R55, R102, D16; log 20). -/
def addressHigh (address : BitVec 14) : Byte := llhSeven address.toNat

/-- Split of a 14-bit bus address, low 7 bits (R55, R102, D16; log 20). -/
def addressLow (address : BitVec 14) : Byte := lllSeven address.toNat

/-- `(x & 0x7f) | ((y << k) & 0x80)`, the shift on natural numbers (R64, R133). -/
def gatherAck (x y : Byte) (k : Nat) : Byte :=
  BitVec.ofNat 8 ((x.toNat &&& 0x7f) ||| ((y.toNat <<< k) &&& 0x80))

/-- The seven bytes in wire order (R53). -/
def bwBytes (p : BwPayload) : List Byte := [p.b0, p.b1, p.b2, p.b3, p.b4, p.b5, p.b6]

/-- Seven bytes read as `b0 .. b6`; nothing else is a BWTIME payload (R53). -/
def bwOfBytes : List Byte → Option BwPayload
  | [b0, b1, b2, b3, b4, b5, b6] => some ⟨b0, b1, b2, b3, b4, b5, b6⟩
  | _ => none

/-- The first `n` elements and the rest, if there are that many. -/
def takeExactly : Nat → List Byte → Option (List Byte × List Byte)
  | 0, l => some ([], l)
  | _ + 1, [] => none
  | n + 1, b :: l => (takeExactly n l).map fun r => (b :: r.1, r.2)

end Sys2Proof.Machine
end

