-- ==== Sys2Proof/Syntax.lean ====
section
/-! DEFINITION. The instructions: one constructor per row of spec/opcode_table.json, in the table's order. -/

namespace Sys2Proof

/-- What the host can present. OP rows are the operations of the port (spec/30_encoding.md R46); MSG rows are whole
frames of a known id on the receive stream (R57, spec/43_dispatcher.md R109 to R120), with the total length their
header carries and their payload; CMD and CLKSUB rows are the command and sub-command bytes of
spec/45_commands.md. -/
inductive Instr where
  | rst
  | rxb (d : Byte)
  | txf (id : MsgId) (payload : List Byte)
  | csclr
  | csadd (d : Byte)
  | cschk (d : Byte)
  | disp (id : MsgId) (length : Len) (payload : List Byte)
  | bwcls (p : BwPayload)
  | acku (p : BwPayload)
  | reserved9
  | reserved10
  | reserved11
  | reserved12
  | reserved13
  | reserved14
  | reserved15
  | msgBoardDump (length : Len) (payload : List Byte)
  | msgBwtime (length : Len) (payload : List Byte)
  | msgFieldUpdate (length : Len) (payload : List Byte)
  | msgEeMoves (length : Len) (payload : List Byte)
  | msgBusAddress (length : Len) (payload : List Byte)
  | msgSerialNumber (length : Len) (payload : List Byte)
  | msgTrademark (length : Len) (payload : List Byte)
  | msgVersion (length : Len) (payload : List Byte)
  | msgBoardDump50Black (length : Len) (payload : List Byte)
  | msgBoardDump50White (length : Len) (payload : List Byte)
  | msgBatteryStatus (length : Len) (payload : List Byte)
  | msgLongSerial (length : Len) (payload : List Byte)
  | cmdReset
  | cmdSendClock
  | cmdSendBoard
  | cmdSendUpdate
  | cmdSendUpdateBoard
  | cmdSerialNumber
  | cmdBusAddress
  | cmdTrademark
  | cmdEeMoves
  | cmdUpdateNice
  | cmdBatteryStatus
  | cmdVersion
  | cmdBoardDumpBlack
  | cmdScanBlack
  | cmdBoardDumpWhite
  | cmdScanWhite
  | cmdScanAll
  | cmdLongSerial
  | cmdSetLeds
  | cmdToBusmode
  | cmdStartBootloader
  | cmdClockMessage
  | clkDisplay
  | clkIcons
  | clkEnd
  | clkButton
  | clkVersion
  | clkSetAndRun
  | clkBeep
  | clkAscii
  deriving DecidableEq, Repr

end Sys2Proof
end

