-- ==== Sys2Proof/WellFormed.lean ====
section
/-! DEFINITION. Which instructions the port or the wire can carry: the widths and counts of spec/30_encoding.md R46, R47. -/

namespace Sys2Proof

/-- A total length and a payload that belong together: `length - 3` payload bytes, none when `length < 3` (R47, R107). -/
def payloadFits (length : Len) (payload : List Byte) : Bool :=
  payload.length == length.toNat - Config.hdr

/-- `TXF`'s operand `n` is 14 bits wide (R46, R88). -/
def countFits (payload : List Byte) : Bool :=
  decide (payload.length ≤ Config.maxLen)

/-- Operand checks, per constructor. -/
def Instr.wf : Instr → Bool
  | .rst => true
  | .rxb _ => true
  | .txf _ payload => countFits payload
  | .csclr => true
  | .csadd _ => true
  | .cschk _ => true
  | .disp _ length payload => payloadFits length payload
  | .bwcls _ => true
  | .acku _ => true
  | .reserved9 => true
  | .reserved10 => true
  | .reserved11 => true
  | .reserved12 => true
  | .reserved13 => true
  | .reserved14 => true
  | .reserved15 => true
  | .msgBoardDump length payload => payloadFits length payload
  | .msgBwtime length payload => payloadFits length payload
  | .msgFieldUpdate length payload => payloadFits length payload
  | .msgEeMoves length payload => payloadFits length payload
  | .msgBusAddress length payload => payloadFits length payload
  | .msgSerialNumber length payload => payloadFits length payload
  | .msgTrademark length payload => payloadFits length payload
  | .msgVersion length payload => payloadFits length payload
  | .msgBoardDump50Black length payload => payloadFits length payload
  | .msgBoardDump50White length payload => payloadFits length payload
  | .msgBatteryStatus length payload => payloadFits length payload
  | .msgLongSerial length payload => payloadFits length payload
  | .cmdReset => true
  | .cmdSendClock => true
  | .cmdSendBoard => true
  | .cmdSendUpdate => true
  | .cmdSendUpdateBoard => true
  | .cmdSerialNumber => true
  | .cmdBusAddress => true
  | .cmdTrademark => true
  | .cmdEeMoves => true
  | .cmdUpdateNice => true
  | .cmdBatteryStatus => true
  | .cmdVersion => true
  | .cmdBoardDumpBlack => true
  | .cmdScanBlack => true
  | .cmdBoardDumpWhite => true
  | .cmdScanWhite => true
  | .cmdScanAll => true
  | .cmdLongSerial => true
  | .cmdSetLeds => true
  | .cmdToBusmode => true
  | .cmdStartBootloader => true
  | .cmdClockMessage => true
  | .clkDisplay => true
  | .clkIcons => true
  | .clkEnd => true
  | .clkButton => true
  | .clkVersion => true
  | .clkSetAndRun => true
  | .clkBeep => true
  | .clkAscii => true

end Sys2Proof
end

