-- ==== Sys2Proof/Decode.lean ====
section
/-! DEFINITION. Decoding a presentation (code space and bytes) to an instruction, total, rejecting by name, and the encoder
(spec/30_encoding.md R46 to R61, spec/opcode_table.json, spec/95_test_vectors.md Part 3). -/

namespace Sys2Proof

open Sys2Proof.Machine

/-- Why a presentation is no instruction. -/
inductive DecodeError where
  /-- No byte at all was presented. -/
  | empty
  /-- The select code is 4 bits wide (R45); this byte does not hold one. -/
  | selectNotFourBits (b : Byte)
  /-- Fewer bytes than the operands take (R45). -/
  | truncated
  /-- A 7-bit id cannot be presented with its eighth bit set (R92). -/
  | idNotSevenBits (b : Byte)
  /-- `n` and `length` are 14 bits wide (R46). -/
  | countNotFourteenBits (hi lo : Byte)
  /-- A header byte has its high bit set (R48). -/
  | notAHeader (b : Byte)
  /-- The id of this header byte is none of the twelve rows of the table (R57, R58). -/
  | unknownMessageId (b : Byte)
  /-- A length byte has its own high bit 0 (R49). -/
  | lengthNotClean (b : Byte)
  /-- No command of the table has this code (R61). -/
  | unassignedCommand (b : Byte)
  /-- No clock sub-command of the table has this code (R61). -/
  | unassignedSubCommand (b : Byte)
  deriving DecidableEq, Repr

/-- What decoding answers: an instruction and the bytes after it, or the reason there is none. -/
abbrev Decoded := Except DecodeError (Instr × List Byte)

/-- A one-byte operand. -/
def decodeByte (mk : Byte → Instr) : List Byte → Decoded
  | d :: rest => .ok (mk d, rest)
  | [] => .error .truncated

/-- The seven bytes of `BWCLS` and `ACKU`. -/
def decodeBw (mk : BwPayload → Instr) : List Byte → Decoded
  | b0 :: b1 :: b2 :: b3 :: b4 :: b5 :: b6 :: rest => .ok (mk ⟨b0, b1, b2, b3, b4, b5, b6⟩, rest)
  | _ => .error .truncated

/-- The operands `id`, a 14-bit number in two bytes, and the payload bytes that number announces, of `TXF` and `DISP`:
`size` says how many (R46, R88, R107). -/
def decodeIdCountPayload (size : Nat → Nat) (mk : MsgId → Nat → List Byte → Instr) : List Byte → Decoded
  | id :: hi :: lo :: rest =>
    if highBit id then .error (.idNotSevenBits id)
    else if 64 ≤ hi.toNat then .error (.countNotFourteenBits hi lo)
    else
      match takeExactly (size (portWord hi lo)) rest with
      | some (payload, rest') => .ok (mk (low7 id) (portWord hi lo) payload, rest')
      | none => .error .truncated
  | _ => .error .truncated

/-- An operation of the port: the select code in the low four bits of the first byte, then the operand bytes (R45, R46). -/
def decodeOp : List Byte → Decoded
  | [] => .error .empty
  | b :: rest =>
    match b.toNat with
    | 0 => .ok (.rst, rest)
    | 1 => decodeByte .rxb rest
    | 2 => decodeIdCountPayload (fun n => n) (fun id _ payload => .txf id payload) rest
    | 3 => .ok (.csclr, rest)
    | 4 => decodeByte .csadd rest
    | 5 => decodeByte .cschk rest
    | 6 => decodeIdCountPayload (fun n => n - Config.hdr) (fun id n payload => .disp id (BitVec.ofNat 14 n) payload) rest
    | 7 => decodeBw .bwcls rest
    | 8 => decodeBw .acku rest
    | 9 => .ok (.reserved9, rest)
    | 10 => .ok (.reserved10, rest)
    | 11 => .ok (.reserved11, rest)
    | 12 => .ok (.reserved12, rest)
    | 13 => .ok (.reserved13, rest)
    | 14 => .ok (.reserved14, rest)
    | 15 => .ok (.reserved15, rest)
    | _ => .error (.selectNotFourBits b)

/-- The instruction a header byte stands for (R57). -/
def messageOf (w0 : Byte) (length : Len) (payload : List Byte) : Option Instr :=
  match w0.toNat with
  | 0x86 => some (.msgBoardDump length payload)
  | 0x8d => some (.msgBwtime length payload)
  | 0x8e => some (.msgFieldUpdate length payload)
  | 0x8f => some (.msgEeMoves length payload)
  | 0x90 => some (.msgBusAddress length payload)
  | 0x91 => some (.msgSerialNumber length payload)
  | 0x92 => some (.msgTrademark length payload)
  | 0x93 => some (.msgVersion length payload)
  | 0x94 => some (.msgBoardDump50Black length payload)
  | 0x95 => some (.msgBoardDump50White length payload)
  | 0xa0 => some (.msgBatteryStatus length payload)
  | 0xa2 => some (.msgLongSerial length payload)
  | _ => none

/-- A frame of the wire: header byte, two 7-bit length bytes, `L - 3` payload bytes (R47). -/
def decodeMsg : List Byte → Decoded
  | [] => .error .empty
  | [_] => .error .truncated
  | [_, _] => .error .truncated
  | w0 :: w1 :: w2 :: rest =>
    if highBit w0 then
      if highBit w1 then .error (.lengthNotClean w1)
      else if highBit w2 then .error (.lengthNotClean w2)
      else
        match takeExactly ((lenHigh w1 ||| lenLow w2).toNat - Config.hdr) rest with
        | some (payload, rest') =>
          match messageOf w0 (lenHigh w1 ||| lenLow w2) payload with
          | some i => .ok (i, rest')
          | none => .error (.unknownMessageId w0)
        | none => .error .truncated
    else .error (.notAHeader w0)

/-- The command a byte stands for (R146 to R167). -/
def commandOf (b : Byte) : Option Instr :=
  match b.toNat with
  | 0x40 => some .cmdReset
  | 0x41 => some .cmdSendClock
  | 0x42 => some .cmdSendBoard
  | 0x43 => some .cmdSendUpdate
  | 0x44 => some .cmdSendUpdateBoard
  | 0x45 => some .cmdSerialNumber
  | 0x46 => some .cmdBusAddress
  | 0x47 => some .cmdTrademark
  | 0x49 => some .cmdEeMoves
  | 0x4b => some .cmdUpdateNice
  | 0x4c => some .cmdBatteryStatus
  | 0x4d => some .cmdVersion
  | 0x50 => some .cmdBoardDumpBlack
  | 0x51 => some .cmdScanBlack
  | 0x52 => some .cmdBoardDumpWhite
  | 0x53 => some .cmdScanWhite
  | 0x54 => some .cmdScanAll
  | 0x55 => some .cmdLongSerial
  | 0x60 => some .cmdSetLeds
  | 0x4a => some .cmdToBusmode
  | 0x4e => some .cmdStartBootloader
  | 0x2b => some .cmdClockMessage
  | _ => none

/-- The clock sub-command a byte stands for (R169 to R176). -/
def subCommandOf (b : Byte) : Option Instr :=
  match b.toNat with
  | 0x01 => some .clkDisplay
  | 0x02 => some .clkIcons
  | 0x03 => some .clkEnd
  | 0x08 => some .clkButton
  | 0x09 => some .clkVersion
  | 0x0a => some .clkSetAndRun
  | 0x0b => some .clkBeep
  | 0x0c => some .clkAscii
  | _ => none

/-- A command byte (R56). -/
def decodeCmd : List Byte → Decoded
  | [] => .error .empty
  | b :: rest =>
    match commandOf b with
    | some i => .ok (i, rest)
    | none => .error (.unassignedCommand b)

/-- A clock sub-command byte (R168). -/
def decodeClksub : List Byte → Decoded
  | [] => .error .empty
  | b :: rest =>
    match subCommandOf b with
    | some i => .ok (i, rest)
    | none => .error (.unassignedSubCommand b)

/-- Decoding: the code space selects the table, the bytes are read from the front, and what is left over is returned
(log 3, log 4). -/
def decode (p : Presented) : Decoded :=
  match p.format with
  | .op => decodeOp p.bytes
  | .msg => decodeMsg p.bytes
  | .cmd => decodeCmd p.bytes
  | .clksub => decodeClksub p.bytes

/-! ### The encoder -/

/-- Port form of `id`, a 14-bit number and a payload, after select code `op` (R46; log 3). -/
def encodeIdCountPayload (op : Byte) (id : MsgId) (n : Nat) (payload : List Byte) : Presented :=
  ⟨.op, op :: zext8 id :: portHigh n :: portLow n :: payload⟩

/-- Wire form of a frame (R47, R52). -/
def encodeMsg (w0 : Byte) (length : Len) (payload : List Byte) : Presented :=
  ⟨.msg, w0 :: llhSeven length.toNat :: lllSeven length.toNat :: payload⟩

/-- The presentation of an instruction. -/
def encode : Instr → Presented
  | .rst => ⟨.op, [0]⟩
  | .rxb d => ⟨.op, [1, d]⟩
  | .txf id payload => encodeIdCountPayload 2 id payload.length payload
  | .csclr => ⟨.op, [3]⟩
  | .csadd d => ⟨.op, [4, d]⟩
  | .cschk d => ⟨.op, [5, d]⟩
  | .disp id length payload => encodeIdCountPayload 6 id length.toNat payload
  | .bwcls p => ⟨.op, 7 :: bwBytes p⟩
  | .acku p => ⟨.op, 8 :: bwBytes p⟩
  | .reserved9 => ⟨.op, [9]⟩
  | .reserved10 => ⟨.op, [10]⟩
  | .reserved11 => ⟨.op, [11]⟩
  | .reserved12 => ⟨.op, [12]⟩
  | .reserved13 => ⟨.op, [13]⟩
  | .reserved14 => ⟨.op, [14]⟩
  | .reserved15 => ⟨.op, [15]⟩
  | .msgBoardDump length payload => encodeMsg 0x86 length payload
  | .msgBwtime length payload => encodeMsg 0x8d length payload
  | .msgFieldUpdate length payload => encodeMsg 0x8e length payload
  | .msgEeMoves length payload => encodeMsg 0x8f length payload
  | .msgBusAddress length payload => encodeMsg 0x90 length payload
  | .msgSerialNumber length payload => encodeMsg 0x91 length payload
  | .msgTrademark length payload => encodeMsg 0x92 length payload
  | .msgVersion length payload => encodeMsg 0x93 length payload
  | .msgBoardDump50Black length payload => encodeMsg 0x94 length payload
  | .msgBoardDump50White length payload => encodeMsg 0x95 length payload
  | .msgBatteryStatus length payload => encodeMsg 0xa0 length payload
  | .msgLongSerial length payload => encodeMsg 0xa2 length payload
  | .cmdReset => ⟨.cmd, [0x40]⟩
  | .cmdSendClock => ⟨.cmd, [0x41]⟩
  | .cmdSendBoard => ⟨.cmd, [0x42]⟩
  | .cmdSendUpdate => ⟨.cmd, [0x43]⟩
  | .cmdSendUpdateBoard => ⟨.cmd, [0x44]⟩
  | .cmdSerialNumber => ⟨.cmd, [0x45]⟩
  | .cmdBusAddress => ⟨.cmd, [0x46]⟩
  | .cmdTrademark => ⟨.cmd, [0x47]⟩
  | .cmdEeMoves => ⟨.cmd, [0x49]⟩
  | .cmdUpdateNice => ⟨.cmd, [0x4b]⟩
  | .cmdBatteryStatus => ⟨.cmd, [0x4c]⟩
  | .cmdVersion => ⟨.cmd, [0x4d]⟩
  | .cmdBoardDumpBlack => ⟨.cmd, [0x50]⟩
  | .cmdScanBlack => ⟨.cmd, [0x51]⟩
  | .cmdBoardDumpWhite => ⟨.cmd, [0x52]⟩
  | .cmdScanWhite => ⟨.cmd, [0x53]⟩
  | .cmdScanAll => ⟨.cmd, [0x54]⟩
  | .cmdLongSerial => ⟨.cmd, [0x55]⟩
  | .cmdSetLeds => ⟨.cmd, [0x60]⟩
  | .cmdToBusmode => ⟨.cmd, [0x4a]⟩
  | .cmdStartBootloader => ⟨.cmd, [0x4e]⟩
  | .cmdClockMessage => ⟨.cmd, [0x2b]⟩
  | .clkDisplay => ⟨.clksub, [0x01]⟩
  | .clkIcons => ⟨.clksub, [0x02]⟩
  | .clkEnd => ⟨.clksub, [0x03]⟩
  | .clkButton => ⟨.clksub, [0x08]⟩
  | .clkVersion => ⟨.clksub, [0x09]⟩
  | .clkSetAndRun => ⟨.clksub, [0x0a]⟩
  | .clkBeep => ⟨.clksub, [0x0b]⟩
  | .clkAscii => ⟨.clksub, [0x0c]⟩

/-! ### The table's words -/

/-- The code space in which a word of spec/opcode_table.json is read when nothing but the word is given: a byte with its
high bit set is a header byte, one below 16 a select code, any other a command byte. Eight clock sub-command codes are
also select codes and are then read as select codes (log 2). -/
def tableFormat (b : Byte) : Format :=
  if highBit b then .msg else if b.toNat < 16 then .op else .cmd

/-- Bytes of the longest instruction: select code, id, two count bytes and 16383 payload bytes. -/
def longestInstr : Nat := 4 + Config.maxLen

/-- The bytes of a table word, least significant first, then zeros (R45; log 2, log 3). -/
def tableBytes (nbits w : Nat) : List Byte :=
  (List.range ((nbits + 7) / 8)).map (fun k => BitVec.ofNat 8 (w >>> (8 * k))) ++ List.replicate longestInstr 0

/-- The presentation of a table word. -/
def tablePresented (nbits w : Nat) : Presented :=
  ⟨tableFormat (BitVec.ofNat 8 w), tableBytes nbits w⟩

/-- The instruction the decoder reads from a table word (log 2). -/
def decodeTableWord (nbits w : Nat) : Option Instr :=
  match decode (tablePresented nbits w) with
  | .ok (i, _) => some i
  | .error _ => none

end Sys2Proof
end

