-- ==== Sys2Proof/Machine/State.lean ====
section
/-! DEFINITION. The state of the block (spec/10_state.md R13, R28), the values that cross its port (spec/30_encoding.md R46,
spec/60_exceptions.md R182), and the reasons a step of the model can stop. -/

namespace Sys2Proof.Machine

/-! ### Values that cross the port -/

/-- The five legal values of `rx_state` (R14). -/
inductive RxState where
  | idle
  | hunt
  | lenHi
  | lenLo
  | payload
  deriving DecidableEq, Repr

/-- One complete frame, `{ id, length, payload }` (R47). -/
structure Frame where
  id      : MsgId
  length  : Len
  payload : List Byte
  deriving DecidableEq, Repr

/-- The causes of `FrameInvalid` (R183). -/
inductive Cause where
  | notStart
  | lenNotClean
  | lenRange
  deriving DecidableEq, Repr

/-- The message kinds of the dispatch table (R108). -/
inductive MessageKind where
  | boardDump
  | bwTime
  | fieldUpdate
  | eeMoves
  | busAddress
  | serialNumber
  | trademark
  | version
  | boardDump50Black
  | boardDump50White
  | batteryStatus
  | longSerial
  deriving DecidableEq, Repr

/-- The size rules of the dispatch table, on total lengths (R107, R108). -/
inductive SizeRule where
  | fixed (n : Nat)
  | range (lo hi : Nat)
  | any
  deriving DecidableEq, Repr

/-- One row of the dispatch table (R108). -/
structure TableRow where
  id   : MsgId
  kind : MessageKind
  rule : SizeRule
  deriving DecidableEq, Repr

/-- The reading of `ack0` (R135). -/
inductive AckStatus where
  | normal
  | rejected
  | errorFlag
  | other
  deriving DecidableEq, Repr

/-- A rebuilt clock acknowledgement (R133). -/
structure ClockAck where
  ack0   : Byte
  ack1   : Byte
  ack2   : Byte
  ack3   : Byte
  status : AckStatus
  auto   : Bool
  sub    : BitVec 7
  kind   : AckSubKind
  deriving DecidableEq, Repr

/-- What the dispatcher answers for one frame (R107). -/
inductive DispatchResult where
  | message (kind : MessageKind) (payload : List Byte)
  | clockAck (ack : ClockAck)
  | clockTime (raw : BwPayload)
  | unknownMessage (id : MsgId)
  | lengthMismatch (id : MsgId) (lo hi actual : Nat)
  deriving DecidableEq, Repr

/-- The output values of the operations (R46). `nothing` is the spec's `None`; `dispatched` is the dispatch result that the
stand-alone `DISP` answers. -/
inductive Output where
  | nothing
  | skipped
  | frameInvalid (cause : Cause) (dropped : Nat)
  | delivered (frame : Frame) (result : DispatchResult)
  | bytes (seq : List Byte)
  | encodeRefused (n : Nat)
  | sum (v : Sum7)
  | csOk
  | checksumMismatch (expected : Sum7) (got : Byte)
  | dispatched (result : DispatchResult)
  | isAck
  | isTime
  | clockAck (ack : ClockAck)
  | opRefused (op : BitVec 4)
  deriving DecidableEq, Repr

/-- The error kinds of the block (R182). -/
inductive ErrorKind where
  | frameInvalid
  | lengthMismatch
  | unknownMessage
  | checksumMismatch
  | encodeRefused
  | opRefused
  deriving DecidableEq, Repr

/-- Where an error leaves the receive parser (R183, R194): where it was, hunting for a frame start, or in a frame that
the offending byte starts. -/
inductive Resync where
  | stay
  | hunt
  | restart (d : Byte)
  deriving DecidableEq, Repr

/-! ### Why a step stops -/

/-- Faults of the model. The hardware has none (spec/93_implementation_defined.md Part 1); neither is reached from a state
that meets the invariant of R21. -/
inductive Fault where
  /-- Raised by `RXB` at completion, on reading a cell of `rx_buf` that nothing has written (R19, U10). Safe (log 10). -/
  | rxBufUnwritten (a : Nat)
  /-- Raised by `RXB`, on forming an index of `rx_buf` at or above `RX_BUF_SIZE` (R30). Safe (log 11). -/
  | rxBufIndex (a : Nat)
  deriving DecidableEq, Repr

/-- Refusals of the model. -/
inductive Refusal where
  /-- Answered by `exec` for an instruction that has no meaning yet. Safe. -/
  | notModelled (mnemonic : String)
  /-- Answered by `DISP` for a payload that is not `length - 3` bytes, which "the port makes impossible" (R107). Safe (log 13). -/
  | notAFrame
  deriving DecidableEq, Repr

/-! ### The state -/

/-- The payload buffer `rx_buf` as (index, byte) pairs, indexes strictly rising. An unlisted cell has no value (log 10). -/
abbrev Memory := List Host.Cell

/-- One instance of the block (R13), and three fields of the model (INVENTORY.md, State). -/
structure State where
  /-- `rx_state` (R14). -/
  rxState : RxState
  /-- `rx_id` (R16). -/
  rxId : MsgId
  /-- `rx_len` (R17). -/
  rxLen : Len
  /-- `rx_cnt` (R15, R18). -/
  rxCnt : Len
  /-- `rx_buf` (R19, R30). -/
  rxBuf : Memory
  /-- `cs_acc` (R20). -/
  csAcc : Sum7
  /-- The model's: what the host has presented and the block has not performed, first to be performed first (log 1). -/
  port : List Presented
  /-- The model's: the outputs of the step just made, in order (R38; log 8). -/
  out : List Output
  /-- The model's: bytes the host put on the transport itself in the step just made (R145; log 6). -/
  hostSent : List Byte
  deriving DecidableEq, Repr

/-- The state after power-on (R28). `rx_buf` is unspecified: nothing is listed. The host has presented nothing. -/
def State.reset : State where
  rxState := .idle
  rxId := 0
  rxLen := 0
  rxCnt := 0
  rxBuf := []
  csAcc := 0
  port := []
  out := []
  hostSent := []

end Sys2Proof.Machine
end

