-- ==== Sys2Proof/Machine/Flags.lean ====
section
/-! DEFINITION. Every condition the block computes (spec/10_state.md R22): there is no flag register, each condition is read
from the operands of the operation that reports it. Also the spec's numbers for its names (R14, R108, R182, R183). -/

namespace Sys2Proof.Machine

/-! ### Conditions -/

/-- `is_ack`: either low nibble is `0xA` (R131). -/
def isAck (b0 b3 : Byte) : Bool :=
  b0 &&& 0x0f == 0x0a || b3 &&& 0x0f == 0x0a

/-- `ack_status`, the conditions tested in this order (R135). -/
def ackStatus (ack0 : Byte) : AckStatus :=
  if ack0 = 0x10 then .normal
  else if ack0 = 0x40 then .rejected
  else if highBit ack0 then .errorFlag
  else .other

/-- The derived predicate `ack_error` (R135). -/
def ackError (status : AckStatus) : Bool :=
  status = .rejected || status = .errorFlag

/-- `ACK_SUBKIND`: `0x01` is `Ready`, the rest is open (R137, D18; log 9). -/
def ackSubkind (sub : BitVec 7) : AckSubKind :=
  if sub = 0x01 then .ready else Config.ackSubkindOpen sub

/-- `size_ok` on a total length (R107). -/
def sizeOk : SizeRule → Nat → Bool
  | .fixed n, length => length == n
  | .range lo hi, length => decide (lo ≤ length) && decide (length ≤ hi)
  | .any, _ => true

/-- The range a `LengthMismatch` reports: `lo = hi = n` for a fixed size (R122). `Any` never mismatches. -/
def sizeBounds : SizeRule → Nat × Nat
  | .fixed n => (n, n)
  | .range lo hi => (lo, hi)
  | .any => (Config.minLen, Config.maxLen)

/-- The checksum comparison, on all 8 bits (R100). -/
def checksumMatches (acc : Sum7) (d : Byte) : Bool := d == zext8 acc

/-- The kind of error an output is, if it is one (R182, R191). The dispatcher's two errors are errors inside `Delivered`
as well. -/
def resultError : DispatchResult → Option ErrorKind
  | .unknownMessage _ => some .unknownMessage
  | .lengthMismatch _ _ _ _ => some .lengthMismatch
  | .message _ _ => none
  | .clockAck _ => none
  | .clockTime _ => none

/-- See `resultError`. -/
def outputError : Output → Option ErrorKind
  | .frameInvalid _ _ => some .frameInvalid
  | .delivered _ result => resultError result
  | .dispatched result => resultError result
  | .checksumMismatch _ _ => some .checksumMismatch
  | .encodeRefused _ => some .encodeRefused
  | .opRefused _ => some .opRefused
  | .nothing => none
  | .skipped => none
  | .bytes _ => none
  | .sum _ => none
  | .csOk => none
  | .isAck => none
  | .isTime => none
  | .clockAck _ => none

/-! ### The spec's numbers for names -/

/-- The code of a parser state (R14, D2). -/
def RxState.code : RxState → BitVec 3
  | .idle => 0
  | .hunt => 1
  | .lenHi => 2
  | .lenLo => 3
  | .payload => 4

/-- The code of a cause (R183, D10). -/
def Cause.code : Cause → Nat
  | .notStart => 1
  | .lenNotClean => 2
  | .lenRange => 3

/-- The code of an error kind (R182, D10). -/
def ErrorKind.code : ErrorKind → Nat
  | .frameInvalid => 1
  | .lengthMismatch => 2
  | .unknownMessage => 3
  | .checksumMismatch => 4
  | .encodeRefused => 5
  | .opRefused => 6

/-- The code of a message kind (R108, D11). -/
def MessageKind.code : MessageKind → Nat
  | .boardDump => 1
  | .bwTime => 2
  | .fieldUpdate => 3
  | .eeMoves => 4
  | .busAddress => 5
  | .serialNumber => 6
  | .trademark => 7
  | .version => 8
  | .boardDump50Black => 9
  | .boardDump50White => 10
  | .batteryStatus => 11
  | .longSerial => 12

end Sys2Proof.Machine
end

