-- ==== Sys2Proof/Machine/Ops.lean ====
section
/-! DEFINITION. The named operations over the payload buffer and the state: reading and writing cells (spec/20_memory.md R30),
handing an output to the host (R38), taking an error (spec/60_exceptions.md R181, R183, R194) and coming back from one
(R195, spec/40_frame_decoder.md R67). -/

namespace Sys2Proof.Machine

/-- What a meaning answers. -/
abbrev Result := Host.Outcome State Fault Refusal

/-! ### The payload buffer -/

/-- The value of a cell, if it has one (R19; log 10). -/
def Memory.read : Memory → Nat → Option Byte
  | [], _ => none
  | (k, v) :: m, a => if k = a then some v else Memory.read m a

/-- `rx_buf[a] <- v`, keeping the indexes strictly rising. -/
def Memory.write : Memory → Nat → Byte → Memory
  | [], a, v => [(a, v)]
  | (k, w) :: m, a, v =>
    if k = a then (a, v) :: m
    else if a < k then (a, v) :: (k, w) :: m
    else (k, w) :: Memory.write m a v

/-- Every index listed lies above `lo` and below `RX_BUF_SIZE`, and they rise strictly. -/
def Memory.risesFrom : Nat → Memory → Bool
  | _, [] => true
  | lo, (k, _) :: m => decide (lo ≤ k) && decide (k < Config.rxBufSize) && Memory.risesFrom (k + 1) m

/-- The canonical form: equal buffers are equal lists. Unlisted cells have no value, so no entry can equal one. -/
def Memory.wf (m : Memory) : Bool := Memory.risesFrom 0 m

/-- `MemRead(a, 1)` (R9, R30). A cell outside the buffer does not exist; a cell nothing has written has no value. -/
def memRead (m : Memory) (a : Nat) : Except Fault Byte :=
  if a < Config.rxBufSize then
    match m.read a with
    | some v => .ok v
    | none => .error (.rxBufUnwritten a)
  else .error (.rxBufIndex a)

/-- `MemWrite(a, 1, v)` (R9, R30). -/
def memWrite (m : Memory) (a : Nat) (v : Byte) : Except Fault Memory :=
  if a < Config.rxBufSize then .ok (m.write a v) else .error (.rxBufIndex a)

/-- `[ MemRead(a,1), MemRead(a+1,1), ... ]`, `n` cells (R73). -/
def readCells (m : Memory) : Nat → Nat → Except Fault (List Byte)
  | _, 0 => .ok []
  | a, n + 1 =>
    match memRead m a with
    | .error f => .error f
    | .ok v =>
      match readCells m (a + 1) n with
      | .error f => .error f
      | .ok vs => .ok (v :: vs)

/-! ### Outputs, errors, recovery -/

/-- The state with the outputs of this step handed to the host (R38); the host sent nothing past the block. -/
def State.answer (s : State) (o : Output) : State :=
  { s with out := [o], hostSent := [] }

/-- The state after the host itself put bytes on the transport, past the block: no operation, no output (R145; log 6). -/
def State.passBy (s : State) (bytes : List Byte) : State :=
  { s with out := [], hostSent := bytes }

/-- The state when no operation is performed: it holds (R206; log 1). -/
def State.hold (s : State) : State :=
  { s with out := [], hostSent := [] }

/-- Frame start: `d` is taken as the header byte of a new frame (R67). It is also how the parser comes back from a
`FrameInvalid`: there is no return operation (R195). -/
def State.startFrame (s : State) (d : Byte) : State :=
  { s with rxId := low7 d, rxCnt := 1, rxState := .lenHi }

/-- Where an error leaves the parser (R183, R194; log 19). -/
def State.resync (s : State) : Resync → State
  | .stay => s
  | .hunt => { s with rxState := .hunt, rxCnt := 0 }
  | .restart d => s.startFrame d

/-- Taking an error, `raise K(info)` (R9, R181, R194): nothing is saved, the parser is left where the error says, and the
error is the output of this step. -/
def State.raise (s : State) (error : Output) (r : Resync) : State :=
  (s.resync r).answer error

/-- `t`, with what `s` answered before it put in front of its own answers. -/
def State.withEarlier (t s : State) : State :=
  { t with out := s.out ++ t.out, hostSent := s.hostSent ++ t.hostSent }

/-- Outcomes one after the other, the outputs and the host's bytes of both steps kept in order (R39). -/
def andThen (r : Result) (f : State → Result) : Result :=
  match r with
  | .next s =>
    match f s with
    | .next t => .next (t.withEarlier s)
    | .fault e => .fault e
    | .refused e => .refused e
  | .fault e => .fault e
  | .refused e => .refused e

end Sys2Proof.Machine
end

