-- ==== Sys2Proof/Machine/Checksum.lean ====
section
/-! DEFINITION. The checksum generator: `CSCLR`, `CSADD`, `CSCHK`, and the bus envelope's arithmetic
(spec/42_checksum.md). -/

namespace Sys2Proof.Machine

/-- The step form `(cs_acc + d) mod 128` (R64, R97). -/
def checksumStep (acc : Sum7) (d : Byte) : Sum7 :=
  BitVec.ofNat 7 ((acc.toNat + d.toNat) % Config.csMod)

/-- The sum of the bytes as natural numbers (R8). -/
def byteSum (bs : List Byte) : Nat := (bs.map BitVec.toNat).sum

/-- `checksum(bs) = sum(bs) mod 128` (R95). -/
def checksum (bs : List Byte) : Sum7 :=
  BitVec.ofNat 7 (byteSum bs % Config.csMod)

/-- The checksum byte as sent on the wire (R99). -/
def checksumByte (v : Sum7) : Byte := zext8 v

/-- A bus command: command byte, address high 7 bits, address low 7 bits, checksum of the three (R55, R102, R177; log 20).
The source names the ids and gives no number (R177), so any id may stand. The host assembles it. -/
def busCommand (id : BitVec 7) (address : BitVec 14) : List Byte :=
  let covered := [busCommandByte id, addressHigh address, addressLow address]
  covered ++ [checksumByte (checksum covered)]

/-- Whether the last byte of an envelope is the checksum of every byte before it (R103). -/
def envelopeChecks (envelope : List Byte) : Bool :=
  match envelope.getLast? with
  | some c => checksumMatches (checksum envelope.dropLast) c
  | none => false

/-- `CSCLR` (R96). -/
def execCsclr (s : State) : Result :=
  .next ({ s with csAcc := 0 }.answer .nothing)

/-- `CSADD d` (R97). -/
def execCsadd (d : Byte) (s : State) : Result :=
  .next ({ s with csAcc := checksumStep s.csAcc d }.answer (.sum (checksumStep s.csAcc d)))

/-- `CSCHK d` (R100): a mismatch changes no state (R188). -/
def execCschk (d : Byte) (s : State) : Result :=
  if checksumMatches s.csAcc d then .next (s.answer .csOk)
  else .next (s.raise (.checksumMismatch s.csAcc d) .stay)

end Sys2Proof.Machine
end

