-- ==== Sys2Proof/Machine/Commands.lean ====
section
/-! DEFINITION. The CMD and CLKSUB rows: command codes and clock sub-command codes (spec/45_commands.md). "The block does not
interpret, assemble, send or gate commands" and "a command byte reaches the transport from the host directly" (R145): the
block's state is untouched, there is no output, and the byte is recorded as one that passed the block by (log 6, log 7). -/

namespace Sys2Proof.Machine

/-- The end marker that terminates a clock sub-command (R167, R168). -/
def clockEndMarker : Byte := 0x00

/-- Command `CMD_RESET`, byte 0x40 (R146). -/
def execCmdReset (s : State) : Result := .next (s.passBy [0x40])

/-- Command `CMD_SEND_CLOCK`, byte 0x41 (R147). -/
def execCmdSendClock (s : State) : Result := .next (s.passBy [0x41])

/-- Command `CMD_SEND_BOARD`, byte 0x42 (R148). -/
def execCmdSendBoard (s : State) : Result := .next (s.passBy [0x42])

/-- Command `CMD_SEND_UPDATE`, byte 0x43 (R149). -/
def execCmdSendUpdate (s : State) : Result := .next (s.passBy [0x43])

/-- Command `CMD_SEND_UPDATE_BOARD`, byte 0x44 (R150). -/
def execCmdSendUpdateBoard (s : State) : Result := .next (s.passBy [0x44])

/-- Command `CMD_SERIAL_NUMBER`, byte 0x45 (R151). -/
def execCmdSerialNumber (s : State) : Result := .next (s.passBy [0x45])

/-- Command `CMD_BUS_ADDRESS`, byte 0x46 (R152). -/
def execCmdBusAddress (s : State) : Result := .next (s.passBy [0x46])

/-- Command `CMD_TRADEMARK`, byte 0x47 (R153). -/
def execCmdTrademark (s : State) : Result := .next (s.passBy [0x47])

/-- Command `CMD_EE_MOVES`, byte 0x49 (R154). -/
def execCmdEeMoves (s : State) : Result := .next (s.passBy [0x49])

/-- Command `CMD_UPDATE_NICE`, byte 0x4b (R155). -/
def execCmdUpdateNice (s : State) : Result := .next (s.passBy [0x4b])

/-- Command `CMD_BATTERY_STATUS`, byte 0x4c (R156). -/
def execCmdBatteryStatus (s : State) : Result := .next (s.passBy [0x4c])

/-- Command `CMD_VERSION`, byte 0x4d (R157). -/
def execCmdVersion (s : State) : Result := .next (s.passBy [0x4d])

/-- Command `CMD_BOARD_DUMP_BLACK`, byte 0x50 (R158). -/
def execCmdBoardDumpBlack (s : State) : Result := .next (s.passBy [0x50])

/-- Command `CMD_SCAN_BLACK`, byte 0x51 (R159). -/
def execCmdScanBlack (s : State) : Result := .next (s.passBy [0x51])

/-- Command `CMD_BOARD_DUMP_WHITE`, byte 0x52 (R160). -/
def execCmdBoardDumpWhite (s : State) : Result := .next (s.passBy [0x52])

/-- Command `CMD_SCAN_WHITE`, byte 0x53 (R161). -/
def execCmdScanWhite (s : State) : Result := .next (s.passBy [0x53])

/-- Command `CMD_SCAN_ALL`, byte 0x54 (R162). -/
def execCmdScanAll (s : State) : Result := .next (s.passBy [0x54])

/-- Command `CMD_LONG_SERIAL`, byte 0x55 (R163). -/
def execCmdLongSerial (s : State) : Result := .next (s.passBy [0x55])

/-- Command `CMD_SET_LEDS`, byte 0x60 (R164). -/
def execCmdSetLeds (s : State) : Result := .next (s.passBy [0x60])

/-- Command `CMD_TO_BUSMODE`, byte 0x4a (R165). -/
def execCmdToBusmode (s : State) : Result := .next (s.passBy [0x4a])

/-- Command `CMD_START_BOOTLOADER`, byte 0x4e (R166). -/
def execCmdStartBootloader (s : State) : Result := .next (s.passBy [0x4e])

/-- Command `CMD_CLOCK_MESSAGE`, byte 0x2b (R167). -/
def execCmdClockMessage (s : State) : Result := .next (s.passBy [0x2b])

/-- Clock sub-command `CLK_DISPLAY`, byte 0x01 (R169). -/
def execClkDisplay (s : State) : Result := .next (s.passBy [0x01])

/-- Clock sub-command `CLK_ICONS`, byte 0x02 (R170). -/
def execClkIcons (s : State) : Result := .next (s.passBy [0x02])

/-- Clock sub-command `CLK_END`, byte 0x03 (R171). -/
def execClkEnd (s : State) : Result := .next (s.passBy [0x03])

/-- Clock sub-command `CLK_BUTTON`, byte 0x08 (R172). -/
def execClkButton (s : State) : Result := .next (s.passBy [0x08])

/-- Clock sub-command `CLK_VERSION`, byte 0x09 (R173). -/
def execClkVersion (s : State) : Result := .next (s.passBy [0x09])

/-- Clock sub-command `CLK_SET_AND_RUN`, byte 0x0a (R174). -/
def execClkSetAndRun (s : State) : Result := .next (s.passBy [0x0a])

/-- Clock sub-command `CLK_BEEP`, byte 0x0b (R175). -/
def execClkBeep (s : State) : Result := .next (s.passBy [0x0b])

/-- Clock sub-command `CLK_ASCII`, byte 0x0c (R176). -/
def execClkAscii (s : State) : Result := .next (s.passBy [0x0c])

/-- The command codes in the order of R146 to R167. -/
def commandCodes : List Byte :=
  [0x40, 0x41, 0x42, 0x43, 0x44, 0x45, 0x46, 0x47, 0x49, 0x4b, 0x4c,
   0x4d, 0x50, 0x51, 0x52, 0x53, 0x54, 0x55, 0x60, 0x4a, 0x4e, 0x2b]

/-- The clock sub-command codes in the order of R169 to R176. -/
def subCommandCodes : List Byte := [0x01, 0x02, 0x03, 0x08, 0x09, 0x0a, 0x0b, 0x0c]

end Sys2Proof.Machine
end

