-- ==== Sys2Proof/Machine/Encoder.lean ====
section
/-! DEFINITION. The frame encoder, `TXF` (spec/41_frame_encoder.md). -/

namespace Sys2Proof.Machine

/-- The three header bytes of a frame of total length `L` (R85, R88). -/
def headerOf (id : MsgId) (L : Nat) : List Byte := [headerByte id, llhSeven L, lllSeven L]

/-- `encode_frame(id, payload)` (R85, R88): the payload bytes unchanged (R91). -/
def encodeFrame (id : MsgId) (payload : List Byte) : List Byte :=
  headerOf id (payload.length + Config.hdr) ++ payload

/-- `TXF id, payload` (R88): a payload above 16380 bytes is refused and produces no bytes (R90, R189; log 14). -/
def execTxf (id : MsgId) (payload : List Byte) (s : State) : Result :=
  if Config.maxPayload < payload.length then .next (s.raise (.encodeRefused payload.length) .stay)
  else .next (s.answer (.bytes (encodeFrame id payload)))

/-- The transmit stream of a run: what the successful `TXF` operations returned, in operation order (R32). -/
def transmitStream : List Output → List Byte
  | [] => []
  | .bytes seq :: os => seq ++ transmitStream os
  | _ :: os => transmitStream os

end Sys2Proof.Machine
end

