-- ==== Sys2Proof/Machine/Clock.lean ====
section
/-! DEFINITION. The clock-acknowledgement unpacker: `BWCLS`, `ACKU` and the functions behind them
(spec/44_clock_unpacker.md). -/

namespace Sys2Proof.Machine

/-- `ack_unpack(b0 .. b6)` (R133, R135 to R137). -/
def ackUnpack (p : BwPayload) : ClockAck :=
  let ack0 := gatherAck p.b1 p.b3 3
  let ack1 := gatherAck p.b2 p.b3 2
  let ack2 := gatherAck p.b4 p.b0 3
  let ack3 := gatherAck p.b5 p.b0 2
  { ack0, ack1, ack2, ack3
    status := ackStatus ack0
    auto := highBit ack1
    sub := low7 ack1
    kind := ackSubkind (low7 ack1) }

/-- A marker byte with the two top bits it carries (R134). -/
def markerByte (bit4 bit5 : Byte) : Byte :=
  0x0a ||| (if highBit bit4 then 0x10 else 0) ||| (if highBit bit5 then 0x20 else 0)

/-- The inverse packing: the 7-bit-clean payload with both markers set that carries these four bytes (R134). -/
def ackPack (ack0 ack1 ack2 ack3 : Byte) (b6 : BitVec 7) : BwPayload :=
  { b0 := markerByte ack2 ack3
    b1 := ack0 &&& 0x7f
    b2 := ack1 &&& 0x7f
    b3 := markerByte ack0 ack1
    b4 := ack2 &&& 0x7f
    b5 := ack3 &&& 0x7f
    b6 := zext8 b6 }

/-- `clock_decode` (R130): an acknowledgement if either marker stands, else the seven bytes unchanged (R132). -/
def clockDecode (p : BwPayload) : DispatchResult :=
  if isAck p.b0 p.b3 then .clockAck (ackUnpack p) else .clockTime p

/-! The byte roles of a time reading, and nothing more (R54, R132): the bits above the hours and the bits of the status
byte have no stated positions (spec/91_not_in_source.md N6). -/

/-- `b0[3:0]`: right player hours, one BCD digit (R132). -/
def rightHours (raw : BwPayload) : BitVec 4 := raw.b0.extractLsb' 0 4
/-- Upper bits of `b0`: right player flag bits, undecoded (R132). -/
def rightFlagBits (raw : BwPayload) : BitVec 4 := raw.b0.extractLsb' 4 4
/-- `b1`: right player minutes, BCD (R132). -/
def rightMinutes (raw : BwPayload) : Byte := raw.b1
/-- `b2`: right player seconds, BCD (R132). -/
def rightSeconds (raw : BwPayload) : Byte := raw.b2
/-- `b3[3:0]`: left player hours, one BCD digit (R132). -/
def leftHours (raw : BwPayload) : BitVec 4 := raw.b3.extractLsb' 0 4
/-- Upper bits of `b3`: left player flag bits, undecoded (R132). -/
def leftFlagBits (raw : BwPayload) : BitVec 4 := raw.b3.extractLsb' 4 4
/-- `b4`: left player minutes, BCD (R132). -/
def leftMinutes (raw : BwPayload) : Byte := raw.b4
/-- `b5`: left player seconds, BCD (R132). -/
def leftSeconds (raw : BwPayload) : Byte := raw.b5
/-- `b6`: the shared status bitfield, undecoded (R132, U2). -/
def sharedStatus (raw : BwPayload) : Byte := raw.b6

/-- `BWCLS b0 .. b6` (R131). -/
def execBwcls (p : BwPayload) (s : State) : Result :=
  .next (s.answer (if isAck p.b0 p.b3 then .isAck else .isTime))

/-- `ACKU b0 .. b6` (R133): the markers are not tested. -/
def execAcku (p : BwPayload) (s : State) : Result :=
  .next (s.answer (.clockAck (ackUnpack p)))

end Sys2Proof.Machine
end

