-- ==== Sys2Proof/Machine/Dispatcher.lean ====
section
/-! DEFINITION. The message-type dispatcher: the table, `dispatch`, and `DISP` (spec/43_dispatcher.md). -/

namespace Sys2Proof.Machine

/-- The dispatch table (R108): a constant, sizes are total lengths. -/
def dispatchTable : List TableRow :=
  [ ⟨0x06, .boardDump, .fixed 67⟩,          -- R109
    ⟨0x0d, .bwTime, .fixed 10⟩,             -- R110
    ⟨0x0e, .fieldUpdate, .fixed 5⟩,         -- R111
    ⟨0x0f, .eeMoves, .any⟩,                 -- R112
    ⟨0x10, .busAddress, .fixed 5⟩,          -- R113
    ⟨0x11, .serialNumber, .any⟩,            -- R114
    ⟨0x12, .trademark, .any⟩,               -- R115
    ⟨0x13, .version, .fixed 5⟩,             -- R116
    ⟨0x14, .boardDump50Black, .fixed 53⟩,   -- R117
    ⟨0x15, .boardDump50White, .fixed 53⟩,   -- R118
    ⟨0x20, .batteryStatus, .range Config.battMin Config.battMax⟩, -- R119
    ⟨0x22, .longSerial, .fixed 13⟩ ]        -- R120

/-- `lookup(id)` (R107). -/
def lookup (id : MsgId) : Option TableRow :=
  dispatchTable.find? fun row => row.id == id

/-- The message of an accepted frame (R107): BWTIME goes through `clock_decode` (R110), every other kind is delivered with
the raw payload (R125, R126). A payload that is not seven bytes is no BWTIME payload; no frame of total length 10 has one,
and it is reported by its true size (log 13). -/
def acceptedMessage (kind : MessageKind) (frame : Frame) : DispatchResult :=
  if kind = .bwTime then
    match bwOfBytes frame.payload with
    | some p => clockDecode p
    | none => .lengthMismatch frame.id 10 10 (frame.payload.length + Config.hdr)
  else .message kind frame.payload

/-- `dispatch(frame)` (R107): id first, then size, then the nibble check (R123). -/
def dispatch (frame : Frame) : DispatchResult :=
  match lookup frame.id with
  | none => .unknownMessage frame.id
  | some row =>
    if sizeOk row.rule frame.length.toNat then acceptedMessage row.kind frame
    else .lengthMismatch frame.id (sizeBounds row.rule).1 (sizeBounds row.rule).2 frame.length.toNat

/-- `DISP id, length, payload` (R107): `length < 3` is refused; a payload of another size than `length - 3` is no frame,
and the port makes it impossible (log 13). -/
def execDisp (id : MsgId) (length : Len) (payload : List Byte) (s : State) : Result :=
  if length.toNat < Config.minLen then .next (s.raise (.opRefused 6) .stay)
  else if payload.length = length.toNat - Config.hdr then
    .next (s.answer (.dispatched (dispatch ⟨id, length, payload⟩)))
  else .refused .notAFrame

/-! Named fields, only where the spec gives them (R111, R126, D22). -/

/-- `field = p_0` of a field update (R111). -/
def fieldUpdateField (payload : List Byte) : Option Byte := payload[0]?
/-- `piece = p_1` of a field update (R111). -/
def fieldUpdatePiece (payload : List Byte) : Option Byte := payload[1]?
/-- The one piece code the field-update scenario names, `WPAWN` (R111). -/
def pieceWpawn : Byte := 1
/-- The piece code of cell `c` of a board dump, payload byte `c` (R41, R109). -/
def boardDumpCell (payload : List Byte) (c : Nat) : Option Byte := payload[c]?

end Sys2Proof.Machine
end

