-- ==== Sys2Proof/Machine/Receiver.lean ====
section
/-! DEFINITION. The frame decoder: `RXB` as a state machine (spec/40_frame_decoder.md R66 to R74), and the buffer-level
functions `try_decode_frame`, `resync` and `decode_all` (R75 to R77). -/

namespace Sys2Proof.Machine

/-! ### The state machine -/

/-- Completion, `complete(id, L, payload)` (R74): the frame is dispatched in the same step and the parser is in sync. -/
def State.complete (s : State) (id : MsgId) (L : Len) (payload : List Byte) : State :=
  let frame : Frame := ⟨id, L, payload⟩
  { s with rxCnt := 0, rxState := .idle }.answer (.delivered frame (dispatch frame))

/-- Length byte 1 (R70). -/
def rxLenHi (d : Byte) (s : State) : Result :=
  if highBit d then .next (s.raise (.frameInvalid .lenNotClean 1) (.restart d))
  else .next ({ s with rxLen := lenHigh d, rxCnt := 2, rxState := .lenLo }.answer .nothing)

/-- Length byte 2 (R71, R72): cleanliness first, range second (R193). -/
def rxLenLo (d : Byte) (s : State) : Result :=
  if highBit d then .next (s.raise (.frameInvalid .lenNotClean 2) (.restart d))
  else
    let L := s.rxLen ||| lenLow d
    if L.toNat < Config.minLen then .next (s.raise (.frameInvalid .lenRange 3) .hunt)
    else if L.toNat = Config.hdr then .next ({ s with rxLen := L }.complete s.rxId L [])
    else .next ({ s with rxLen := L, rxCnt := 3, rxState := .payload }.answer .nothing)

/-- Payload byte (R73): stored whatever its high bit (R80); the read at completion sees this write. -/
def rxPayload (d : Byte) (s : State) : Result :=
  match memWrite s.rxBuf (cellIndex s.rxCnt).toNat d with
  | .error f => .fault f
  | .ok m =>
    if s.rxCnt + 1 = s.rxLen then
      match readCells m 0 (s.rxLen.toNat - Config.hdr) with
      | .error f => .fault f
      | .ok payload => .next ({ s with rxBuf := m }.complete s.rxId s.rxLen payload)
    else .next ({ s with rxBuf := m, rxCnt := s.rxCnt + 1 }.answer .nothing)

/-- One byte of the receive stream (R66): `rx_state` selects the rule. -/
def rxByte (d : Byte) (s : State) : Result :=
  match s.rxState with
  | .idle =>
    if highBit d then .next ((s.startFrame d).answer .nothing)                       -- R67
    else .next (s.raise (.frameInvalid .notStart 1) .hunt)                           -- R68
  | .hunt =>
    if highBit d then .next ((s.startFrame d).answer .nothing)                       -- R67
    else .next (s.answer .skipped)                                                   -- R69
  | .lenHi => rxLenHi d s
  | .lenLo => rxLenLo d s
  | .payload => rxPayload d s

/-- `RXB d` (R66). -/
def execRxb (d : Byte) (s : State) : Result := rxByte d s

/-- `RXS [d0, ..., dk]`: the bytes one after the other, the outputs in order (R63). -/
def rxBytes : List Byte → State → Result
  | [], s => .next s.hold
  | d :: ds, s => andThen (rxByte d s) (rxBytes ds)

/-! ### The buffer-level functions -/

/-- The outcomes of `try_decode_frame` (R75). -/
inductive TryResult where
  | complete (frame : Frame) (consumed : Nat)
  | incomplete
  | invalid (cause : Cause)
  deriving DecidableEq, Repr

/-- `try_decode_frame(buf)` (R75): an `Invalid` that can already be seen wins over `Incomplete`. -/
def tryDecodeFrame : List Byte → TryResult
  | [] => .incomplete
  | w0 :: r0 =>
    if highBit w0 then
      match r0 with
      | [] => .incomplete
      | w1 :: r1 =>
        if highBit w1 then .invalid .lenNotClean
        else
          match r1 with
          | [] => .incomplete
          | w2 :: rest =>
            if highBit w2 then .invalid .lenNotClean
            else
              let L := lenHigh w1 ||| lenLow w2
              if L.toNat < Config.minLen then .invalid .lenRange
              else if rest.length + Config.hdr < L.toNat then .incomplete
              else .complete ⟨low7 w0, L, rest.take (L.toNat - Config.hdr)⟩ L.toNat
    else .invalid .notStart

/-- `resync(buf)` (R76): the first byte is dropped, then every byte whose high bit is clear. -/
def resync (buf : List Byte) : List Byte := buf.tail.dropWhile fun d => !highBit d

/-- What `decode_all` emits, and what the outputs of `RXB` amount to when `None`, `Skipped` and the counts of bytes given
up are left out (R77). -/
inductive Event where
  | invalid (cause : Cause)
  | delivered (frame : Frame) (result : DispatchResult)
  deriving DecidableEq, Repr

/-- `decode_all` with a bound on its rounds: the events in order and the pending remainder (R77). -/
def decodeRounds : Nat → List Byte → List Event × List Byte
  | 0, buf => ([], buf)
  | n + 1, buf =>
    match tryDecodeFrame buf with
    | .incomplete => ([], buf)
    | .invalid c => let r := decodeRounds n (resync buf); (.invalid c :: r.1, r.2)
    | .complete f k => let r := decodeRounds n (buf.drop k); (.delivered f (dispatch f) :: r.1, r.2)

/-- `decode_all(buf)` (R77). Every round but the last consumes a byte, so `len(buf)` rounds suffice (log 21). -/
def decodeAll (buf : List Byte) : List Event × List Byte := decodeRounds buf.length buf

/-- The event of an output (R77). -/
def outputEvent : Output → Option Event
  | .frameInvalid c _ => some (.invalid c)
  | .delivered f r => some (.delivered f r)
  | _ => none

/-- The stream bytes an output accounts for (R79). -/
def bytesAccounted : Output → Nat
  | .delivered f _ => f.length.toNat
  | .frameInvalid _ dropped => dropped
  | .skipped => 1
  | _ => 0

end Sys2Proof.Machine
end

