-- ==== Sys2Proof/Machine/Messages.lean ====
section
/-! DEFINITION. The MSG rows: a whole frame of a known id arrives on the receive stream, `RXS` of its bytes
(spec/30_encoding.md R47, R57, R63; spec/43_dispatcher.md R109 to R120; log 5). What the frame's id and size make of it is
the dispatcher's (`dispatchTable`). -/

namespace Sys2Proof.Machine

/-- The bytes of a frame whose header carries total length `length`, presented to the receive unit in wire order: header
byte, two length bytes, payload (R47). -/
def receiveFrame (id : MsgId) (length : Len) (payload : List Byte) (s : State) : Result :=
  rxBytes (headerOf id length.toNat ++ payload) s

/-- `MSG_BOARD_DUMP`: a frame with header byte 0x86 (R109). -/
def execMsgBoardDump (length : Len) (payload : List Byte) (s : State) : Result :=
  receiveFrame 0x06 length payload s

/-- `MSG_BWTIME`: a frame with header byte 0x8d (R110). -/
def execMsgBwtime (length : Len) (payload : List Byte) (s : State) : Result :=
  receiveFrame 0x0d length payload s

/-- `MSG_FIELD_UPDATE`: a frame with header byte 0x8e (R111). -/
def execMsgFieldUpdate (length : Len) (payload : List Byte) (s : State) : Result :=
  receiveFrame 0x0e length payload s

/-- `MSG_EE_MOVES`: a frame with header byte 0x8f (R112). -/
def execMsgEeMoves (length : Len) (payload : List Byte) (s : State) : Result :=
  receiveFrame 0x0f length payload s

/-- `MSG_BUS_ADDRESS`: a frame with header byte 0x90 (R113). -/
def execMsgBusAddress (length : Len) (payload : List Byte) (s : State) : Result :=
  receiveFrame 0x10 length payload s

/-- `MSG_SERIAL_NUMBER`: a frame with header byte 0x91 (R114). -/
def execMsgSerialNumber (length : Len) (payload : List Byte) (s : State) : Result :=
  receiveFrame 0x11 length payload s

/-- `MSG_TRADEMARK`: a frame with header byte 0x92 (R115). -/
def execMsgTrademark (length : Len) (payload : List Byte) (s : State) : Result :=
  receiveFrame 0x12 length payload s

/-- `MSG_VERSION`: a frame with header byte 0x93 (R116). -/
def execMsgVersion (length : Len) (payload : List Byte) (s : State) : Result :=
  receiveFrame 0x13 length payload s

/-- `MSG_BOARD_DUMP_50_BLACK`: a frame with header byte 0x94 (R117). -/
def execMsgBoardDump50Black (length : Len) (payload : List Byte) (s : State) : Result :=
  receiveFrame 0x14 length payload s

/-- `MSG_BOARD_DUMP_50_WHITE`: a frame with header byte 0x95 (R118). -/
def execMsgBoardDump50White (length : Len) (payload : List Byte) (s : State) : Result :=
  receiveFrame 0x15 length payload s

/-- `MSG_BATTERY_STATUS`: a frame with header byte 0xa0 (R119). -/
def execMsgBatteryStatus (length : Len) (payload : List Byte) (s : State) : Result :=
  receiveFrame 0x20 length payload s

/-- `MSG_LONG_SERIAL`: a frame with header byte 0xa2 (R120). -/
def execMsgLongSerial (length : Len) (payload : List Byte) (s : State) : Result :=
  receiveFrame 0x22 length payload s

end Sys2Proof.Machine
end

