-- ==== Sys2Proof/Machine/Port.lean ====
section
/-! DEFINITION. The port itself: `RST` (spec/70_reset_and_hazards.md R210) and the reserved select codes
(spec/30_encoding.md R60). -/

namespace Sys2Proof.Machine

/-- `RST` (R210): `rx_buf` is not written. What the host has presented is the host's and stays. -/
def execRst (s : State) : Result :=
  .next ({ s with rxState := .idle, rxId := 0, rxLen := 0, rxCnt := 0, csAcc := 0 }.answer .nothing)

/-- A reserved select code: no state changes, `OpRefused(op)` (R60, R187). -/
def refuseOp (op : BitVec 4) (s : State) : Result := .next (s.raise (.opRefused op) .stay)

/-- Select code 9 (R60). -/
def execReserved9 (s : State) : Result := refuseOp 9 s

/-- Select code 10 (R60). -/
def execReserved10 (s : State) : Result := refuseOp 10 s

/-- Select code 11 (R60). -/
def execReserved11 (s : State) : Result := refuseOp 11 s

/-- Select code 12 (R60). -/
def execReserved12 (s : State) : Result := refuseOp 12 s

/-- Select code 13 (R60). -/
def execReserved13 (s : State) : Result := refuseOp 13 s

/-- Select code 14 (R60). -/
def execReserved14 (s : State) : Result := refuseOp 14 s

/-- Select code 15 (R60). -/
def execReserved15 (s : State) : Result := refuseOp 15 s

end Sys2Proof.Machine
end

