-- ==== Sys2Proof/Machine/Dispatch.lean ====
section
/-! DEFINITION. The dispatch: one arm per instruction, each a direct call of its meaning. -/

namespace Sys2Proof.Machine

def exec (i : Instr) (s : State) : Host.Outcome State Fault Refusal :=
  match i with
  | .rst => Sys2Proof.Machine.execRst s
  | .rxb d => Sys2Proof.Machine.execRxb d s
  | .txf id payload => Sys2Proof.Machine.execTxf id payload s
  | .csclr => Sys2Proof.Machine.execCsclr s
  | .csadd d => Sys2Proof.Machine.execCsadd d s
  | .cschk d => Sys2Proof.Machine.execCschk d s
  | .disp id length payload => Sys2Proof.Machine.execDisp id length payload s
  | .bwcls p => Sys2Proof.Machine.execBwcls p s
  | .acku p => Sys2Proof.Machine.execAcku p s
  | .reserved9 => Sys2Proof.Machine.execReserved9 s
  | .reserved10 => Sys2Proof.Machine.execReserved10 s
  | .reserved11 => Sys2Proof.Machine.execReserved11 s
  | .reserved12 => Sys2Proof.Machine.execReserved12 s
  | .reserved13 => Sys2Proof.Machine.execReserved13 s
  | .reserved14 => Sys2Proof.Machine.execReserved14 s
  | .reserved15 => Sys2Proof.Machine.execReserved15 s
  | .msgBoardDump length payload => Sys2Proof.Machine.execMsgBoardDump length payload s
  | .msgBwtime length payload => Sys2Proof.Machine.execMsgBwtime length payload s
  | .msgFieldUpdate length payload => Sys2Proof.Machine.execMsgFieldUpdate length payload s
  | .msgEeMoves length payload => Sys2Proof.Machine.execMsgEeMoves length payload s
  | .msgBusAddress length payload => Sys2Proof.Machine.execMsgBusAddress length payload s
  | .msgSerialNumber length payload => Sys2Proof.Machine.execMsgSerialNumber length payload s
  | .msgTrademark length payload => Sys2Proof.Machine.execMsgTrademark length payload s
  | .msgVersion length payload => Sys2Proof.Machine.execMsgVersion length payload s
  | .msgBoardDump50Black length payload => Sys2Proof.Machine.execMsgBoardDump50Black length payload s
  | .msgBoardDump50White length payload => Sys2Proof.Machine.execMsgBoardDump50White length payload s
  | .msgBatteryStatus length payload => Sys2Proof.Machine.execMsgBatteryStatus length payload s
  | .msgLongSerial length payload => Sys2Proof.Machine.execMsgLongSerial length payload s
  | .cmdReset => Sys2Proof.Machine.execCmdReset s
  | .cmdSendClock => Sys2Proof.Machine.execCmdSendClock s
  | .cmdSendBoard => Sys2Proof.Machine.execCmdSendBoard s
  | .cmdSendUpdate => Sys2Proof.Machine.execCmdSendUpdate s
  | .cmdSendUpdateBoard => Sys2Proof.Machine.execCmdSendUpdateBoard s
  | .cmdSerialNumber => Sys2Proof.Machine.execCmdSerialNumber s
  | .cmdBusAddress => Sys2Proof.Machine.execCmdBusAddress s
  | .cmdTrademark => Sys2Proof.Machine.execCmdTrademark s
  | .cmdEeMoves => Sys2Proof.Machine.execCmdEeMoves s
  | .cmdUpdateNice => Sys2Proof.Machine.execCmdUpdateNice s
  | .cmdBatteryStatus => Sys2Proof.Machine.execCmdBatteryStatus s
  | .cmdVersion => Sys2Proof.Machine.execCmdVersion s
  | .cmdBoardDumpBlack => Sys2Proof.Machine.execCmdBoardDumpBlack s
  | .cmdScanBlack => Sys2Proof.Machine.execCmdScanBlack s
  | .cmdBoardDumpWhite => Sys2Proof.Machine.execCmdBoardDumpWhite s
  | .cmdScanWhite => Sys2Proof.Machine.execCmdScanWhite s
  | .cmdScanAll => Sys2Proof.Machine.execCmdScanAll s
  | .cmdLongSerial => Sys2Proof.Machine.execCmdLongSerial s
  | .cmdSetLeds => Sys2Proof.Machine.execCmdSetLeds s
  | .cmdToBusmode => Sys2Proof.Machine.execCmdToBusmode s
  | .cmdStartBootloader => Sys2Proof.Machine.execCmdStartBootloader s
  | .cmdClockMessage => Sys2Proof.Machine.execCmdClockMessage s
  | .clkDisplay => Sys2Proof.Machine.execClkDisplay s
  | .clkIcons => Sys2Proof.Machine.execClkIcons s
  | .clkEnd => Sys2Proof.Machine.execClkEnd s
  | .clkButton => Sys2Proof.Machine.execClkButton s
  | .clkVersion => Sys2Proof.Machine.execClkVersion s
  | .clkSetAndRun => Sys2Proof.Machine.execClkSetAndRun s
  | .clkBeep => Sys2Proof.Machine.execClkBeep s
  | .clkAscii => Sys2Proof.Machine.execClkAscii s

end Sys2Proof.Machine
end

