-- ==== Sys2Proof/Machine/Presentation.lean ====
section
/-! DEFINITION. What the block does with a presentation that is no instruction of the table (log 4): it is total on every byte
of the receive stream (spec/40_frame_decoder.md R66, spec/30_encoding.md R59), it does not look at command codes
(spec/30_encoding.md R61, spec/45_commands.md R145), and it acts at the port only when an operation is issued
(spec/20_memory.md R39). -/

namespace Sys2Proof.Machine

/-- Bytes that are no row of the table, in their code space. On the receive stream they are `RXS` of those bytes: a malformed
frame, an unknown id, a part of a frame, each as R67 to R74 say. An unassigned command or sub-command code passes the block by
as an assigned one does. What is no operation at the port, by its widths or for want of operand bytes (R45, R92), is none: the
block holds its state (R206). -/
def performBytes (p : Presented) (s : State) : Result :=
  match p.format with
  | .op => .next s.hold
  | .msg => rxBytes p.bytes s
  | .cmd => .next (s.passBy p.bytes)
  | .clksub => .next (s.passBy p.bytes)

end Sys2Proof.Machine
end

