-- ==== Sys2Proof/Machine/Step.lean ====
section
/-! DEFINITION. One step: the next presentation of the port is taken, decoded and performed to completion
(spec/20_memory.md R39, spec/00_scope.md R10; log 1). -/

namespace Sys2Proof.Machine

/-- One step. The first presentation leaves the port and its instruction is performed, or, where the decoder finds none, what
the block does with those bytes (log 4); with nothing presented the block holds its state (R206). -/
def step (s : State) : Host.Outcome State Fault Refusal :=
  match s.port with
  | [] => .next s.hold
  | p :: rest =>
    match decode p with
    | .error _ => performBytes p { s with port := rest }
    | .ok (i, _) => exec i { s with port := rest }

/-- The state with a word of spec/opcode_table.json presented next (log 1, log 2). -/
def State.withFetchWord (s : State) (nbits w : Nat) : State :=
  { s with port := tablePresented nbits w :: s.port }

end Sys2Proof.Machine
end

