-- ==== Sys2Proof/Machine/Instances.lean ====
section
/-! DEFINITION. Several instances (spec/60_exceptions.md R205): one block per board; they share nothing. -/

namespace Sys2Proof.Machine

/-- An operation on instance `k` of a bank. -/
def execAt {n : Nat} (k : Fin n) (i : Instr) (bank : Vector State n) :
    Host.Outcome (Vector State n) Fault Refusal :=
  match exec i bank[k] with
  | .next t => .next (bank.set k t)
  | .fault e => .fault e
  | .refused e => .refused e

end Sys2Proof.Machine
end

