-- ==== Sys2Proof/Machine/Pseudo.lean ====
section
/-! DEFINITION. Sequences of operations and the four pseudo-operations, each its expansion (spec/30_encoding.md R63). -/

namespace Sys2Proof.Machine

/-- Operations performed one after the other, the outputs in operation order (R39, R226). -/
def execList : List Instr → State → Result
  | [], s => .next s.hold
  | i :: is, s => andThen (exec i s) (execList is)

/-- `RXS [d0, ..., dk]` (R63). -/
def rxs (ds : List Byte) : List Instr := ds.map Instr.rxb

/-- `CSUM [d0, ..., dk]` (R63). -/
def csum (ds : List Byte) : List Instr := .csclr :: ds.map Instr.csadd

/-- `CSVERIFY [d0, ..., dk, c]` (R63). -/
def csverify (ds : List Byte) (c : Byte) : List Instr := csum ds ++ [.cschk c]

/-- `LOOP id, payload`: `TXF`, then `RXS` of the bytes it answered (R63). -/
def loopBack (id : MsgId) (payload : List Byte) (s : State) : Result :=
  match exec (.txf id payload) s with
  | .next t =>
    match t.out with
    | [.bytes seq] => andThen (.next t) (execList (rxs seq))
    | _ => .next t
  | .fault e => .fault e
  | .refused e => .refused e

/-- The output of `CSUM`: the last `Sum(v)`, or `Sum(0)` (R63). -/
def lastSum : List Output → Sum7
  | [] => 0
  | os =>
    match os.getLast? with
    | some (.sum v) => v
    | _ => 0

end Sys2Proof.Machine
end

