-- ==== Sys2Proof/Safety.lean ====
section
/-! DEFINITION. What a safe run is: the invariant of the receive state (spec/10_state.md R21), completion, the closed output
sets (spec/30_encoding.md R46), and the ends of a run (spec/70_reset_and_hazards.md R226). -/

namespace Sys2Proof.Machine

/-- The first `n` cells of the buffer have been written (R19). -/
def Written (m : Memory) (n : Nat) : Prop := ∀ a, a < n → (m.read a).isSome = true

/-- The row of the table of R21 that belongs to `rx_state`. -/
def State.rxRow (s : State) : Prop :=
  match s.rxState with
  | .idle => s.rxCnt = 0
  | .hunt => s.rxCnt = 0
  | .lenHi => s.rxCnt = 1
  | .lenLo => s.rxCnt = 2 ∧ s.rxLen.toNat % 128 = 0
  | .payload => 3 ≤ s.rxCnt.toNat ∧ s.rxCnt.toNat < s.rxLen.toNat ∧ Written s.rxBuf (s.rxCnt.toNat - 3)

/-- The invariant: the row of R21, and the buffer in its canonical form. -/
def State.Inv (s : State) : Prop := s.rxBuf.wf = true ∧ s.rxRow

/-- A step or an operation answered a next state. -/
def Completes (r : Result) : Prop := ∃ t, r = .next t

/-- A run is quiescent when no frame is pending (R226). -/
def State.quiescent (s : State) : Bool := s.rxState = .idle || s.rxState = .hunt

/-- A frame is pending (R26, R196, R226). -/
def State.pending (s : State) : Bool := !s.quiescent

/-- In sync or hunting, with no byte of a frame taken: the states in which a frame may start (R67). -/
def State.awaitsFrame (s : State) : Prop := (s.rxState = .idle ∨ s.rxState = .hunt) ∧ s.rxCnt = 0

/-- Two states that no later output can tell apart: they agree on the registers and on the cells of the frame being
received. What else the buffer holds is never read (R19, R28, U10). -/
def SameView (s t : State) : Prop :=
  s.rxState = t.rxState ∧ s.rxId = t.rxId ∧ s.rxLen = t.rxLen ∧ s.rxCnt = t.rxCnt ∧ s.csAcc = t.csAcc ∧
    (s.rxState = .payload → ∀ a, a < s.rxCnt.toNat - 3 → s.rxBuf.read a = t.rxBuf.read a)

/-- The registers of the receive unit, as one value (R13). -/
def State.rxRegs (s : State) : RxState × MsgId × Len × Len := (s.rxState, s.rxId, s.rxLen, s.rxCnt)

/-- The closed output set of each operation of the port (R46, R38). A frame or a command byte is no operation. -/
def outputAllowed : Instr → Output → Bool
  | .rst, .nothing => true
  | .rxb _, .nothing => true
  | .rxb _, .skipped => true
  | .rxb _, .frameInvalid _ dropped => decide (1 ≤ dropped) && decide (dropped ≤ 3)
  | .rxb _, .delivered _ _ => true
  | .txf _ _, .bytes _ => true
  | .txf _ payload, .encodeRefused n => n == payload.length
  | .csclr, .nothing => true
  | .csadd _, .sum _ => true
  | .cschk _, .csOk => true
  | .cschk d, .checksumMismatch _ got => got == d
  | .disp _ _ _, .dispatched _ => true
  | .disp _ length _, .opRefused op => op == 6 && decide (length.toNat < 3)
  | .bwcls _, .isAck => true
  | .bwcls _, .isTime => true
  | .acku _, .clockAck _ => true
  | .reserved9, .opRefused op => op == 9
  | .reserved10, .opRefused op => op == 10
  | .reserved11, .opRefused op => op == 11
  | .reserved12, .opRefused op => op == 12
  | .reserved13, .opRefused op => op == 13
  | .reserved14, .opRefused op => op == 14
  | .reserved15, .opRefused op => op == 15
  | _, _ => false

end Sys2Proof.Machine
end

