-- ==== Sys2Proof/Certificates/Slice0/Obligations.lean ====
section
/-! DEFINITION. The statements for the provers, from the numbered rules of spec/. Each docstring names the rule or section it
formalises; where it rests on a choice of the model it says so and names the log entry. -/

open Sys2Proof Sys2Proof.Machine

/-! ### Encoding and the step -/

/-- Decoding undoes encoding, for every well-formed instruction and whatever bytes stand after it (R45 to R47, log 3). -/
def Obligations.DecodeUndoesEncode : Prop :=
  ∀ (i : Instr) (rest : List Byte), i.wf = true →
    decode ⟨(encode i).format, (encode i).bytes ++ rest⟩ = .ok (i, rest)

/-- Each presentation has one meaning: what decodes is well formed and is exactly its encoding and the bytes after it. -/
def Obligations.EncodeUndoesDecode : Prop :=
  ∀ (p : Presented) (i : Instr) (rest : List Byte), decode p = .ok (i, rest) →
    i.wf = true ∧ p = ⟨(encode i).format, (encode i).bytes ++ rest⟩

/-- Words written out from spec/95_test_vectors.md Part 3 (the port's bytes are the model's reading, log 3), from the id map
(R57), and from spec/45_commands.md (R167 for the command, R174 for the sub-command), one or more for each code space. -/
def Obligations.WrittenOutWordsDecode : Prop :=
  decode ⟨.op, [0x00]⟩ = .ok (.rst, []) ∧
  decode ⟨.op, [0x01, 0x8e]⟩ = .ok (.rxb 0x8e, []) ∧
  decode ⟨.op, [0x02, 0x0e, 0x00, 0x02, 0x04, 0x01]⟩ = .ok (.txf 0x0e [0x04, 0x01], []) ∧
  decode ⟨.op, [0x05, 0x50]⟩ = .ok (.cschk 0x50, []) ∧
  decode ⟨.op, [0x06, 0x20, 0x00, 0x0c, 1, 2, 3, 4, 5, 6, 7, 8, 9]⟩ = .ok (.disp 0x20 12 [1, 2, 3, 4, 5, 6, 7, 8, 9], []) ∧
  decode ⟨.op, [0x08, 0x01, 0x10, 0x0a, 0x1a, 0x00, 0x00, 0x00]⟩ =
    .ok (.acku ⟨0x01, 0x10, 0x0a, 0x1a, 0x00, 0x00, 0x00⟩, []) ∧
  decode ⟨.op, [0x0c]⟩ = .ok (.reserved12, []) ∧
  decode ⟨.msg, [0x8e, 0x00, 0x05, 0x04, 0x01]⟩ = .ok (.msgFieldUpdate 5 [0x04, 0x01], []) ∧
  decode ⟨.cmd, [0x2b]⟩ = .ok (.cmdClockMessage, []) ∧
  decode ⟨.clksub, [0x0a]⟩ = .ok (.clkSetAndRun, [])

/-- A step runs the decoded instruction: the presentation leaves the port, the instruction is performed, nothing else. -/
def Obligations.StepRunsTheDecodedInstruction : Prop :=
  ∀ (s : State) (p : Presented) (more : List Presented) (i : Instr) (rest : List Byte),
    s.port = p :: more → decode p = .ok (i, rest) → step s = exec i { s with port := more }

/-- With nothing presented the block holds its state (R206); only the model's own record of the last step is emptied
(log 1, log 8). -/
def Obligations.StepHoldsWhenNothingIsPresented : Prop :=
  ∀ s : State, s.port = [] → step s = .next { s with out := [], hostSent := [] }

/-- What the block does with bytes that are no row of the table. On the receive stream they are `RXS` of those bytes, a
malformed frame or an unknown id among them (R59, R66); an unassigned command or sub-command code passes the block by (R61,
R145); what is no operation at the port is none, and the block holds (R39, R206): that these are the effects of such a
presentation is the model's reading, log 4. A `DISP` term whose payload is not `length - 3` bytes, which "the port makes
impossible" (R107), is refused by name: the model's choice, log 13. -/
def Obligations.BytesThatAreNoRowHaveTheirEffect : Prop :=
  (∀ (s : State) (p : Presented) (more : List Presented) (e : DecodeError),
    s.port = p :: more → decode p = .error e →
    (p.format = .msg → step s = execList (rxs p.bytes) { s with port := more }) ∧
    ((p.format = .cmd ∨ p.format = .clksub) →
      step s = .next { s with port := more, out := [], hostSent := p.bytes }) ∧
    (p.format = .op → step s = .next { s with port := more, out := [], hostSent := [] })) ∧
  (∀ (id : MsgId) (L : Len) (payload : List Byte) (s : State), 3 ≤ L.toNat → payload.length + 3 ≠ L.toNat →
    exec (.disp id L payload) s = .refused .notAFrame)

/-! ### Reset -/

/-- R210: `RST` writes the five reset values, answers `None`, does not write `rx_buf`, and is idempotent; power-on has the
same effect. -/
def Obligations.RstGivesTheResetState : Prop :=
  (∀ s : State, exec .rst s =
    .next { s with rxState := .idle, rxId := 0, rxLen := 0, rxCnt := 0, csAcc := 0, out := [.nothing], hostSent := [] }) ∧
  (∀ s t : State, exec .rst s = .next t → exec .rst t = .next t) ∧
  State.reset.rxState = .idle ∧ State.reset.rxId = 0 ∧ State.reset.rxLen = 0 ∧ State.reset.rxCnt = 0 ∧
    State.reset.csAcc = 0

/-- The state after reset meets the invariant (spec/10_state.md section 8). -/
def Obligations.ResetMeetsTheInvariant : Prop := State.reset.Inv

/-- After `RST`, every run of well-formed instructions answers what it answers from power-on: what was pending, summed or
left in the buffer leaves no trace (spec/70_reset_and_hazards.md sections 1 and 2; V70-1). -/
def Obligations.RstForgetsEverything : Prop :=
  ∀ (s t : State) (is : List Instr), s.Inv → exec .rst s = .next t → (∀ i ∈ is, i.wf = true) →
    ∃ u v, execList is t = .next u ∧ execList is State.reset = .next v ∧ u.out = v.out

/-! ### The invariant and completion -/

/-- Every step keeps the invariant of the receive state, from every state that meets it (spec/10_state.md R21, which the
spec derives from R67 to R73). -/
def Obligations.EveryStepKeepsTheInvariant : Prop :=
  ∀ s t : State, s.Inv → step s = .next t → t.Inv

/-- Every well-formed instruction completes from every state that meets the invariant, and keeps it: no operation faults, is
refused, or gets stuck. All 58 constructors (spec/60_exceptions.md R181, spec/93_implementation_defined.md Part 1). -/
def Obligations.EveryInstructionCompletes : Prop :=
  ∀ (i : Instr) (s : State), i.wf = true → s.Inv → ∃ t, exec i s = .next t ∧ t.Inv

/-- No run stops: whatever the host has presented, instructions or not, `n` steps answer a next state
(spec/60_exceptions.md R181, spec/93_implementation_defined.md after U19; what is no instruction, log 4). -/
def Obligations.RunsNeverStop : Prop :=
  ∀ (n : Nat) (s : State), s.Inv → ∃ t, Host.Core.run Sys2Proof.core n s = .next t ∧ t.Inv

/-- Each operation of the port answers exactly one output, of its closed set (R38, R46). -/
def Obligations.EachOperationAnswersOneOutputOfItsSet : Prop :=
  ∀ (i : Instr) (s : State), (encode i).format = .op → i.wf = true → s.Inv →
    ∃ t o, exec i s = .next t ∧ t.out = [o] ∧ outputAllowed i o = true

/-! ### RXB, rule by rule -/

/-- R67: frame start, in sync or hunting. -/
def Obligations.HeaderByteStartsAFrame : Prop :=
  ∀ (s : State) (d : Byte), (s.rxState = .idle ∨ s.rxState = .hunt) → d[7] = true →
    exec (.rxb d) s =
      .next { s with rxId := d.setWidth 7, rxCnt := 1, rxState := .lenHi, out := [.nothing], hostSent := [] }

/-- R68 and R69: a byte with its high bit clear outside a frame. In sync it is reported once and the parser hunts (`rx_cnt`
stays 0); while hunting it is skipped and no state changes. -/
def Obligations.LowBytesOutsideAFrame : Prop :=
  ∀ (s : State) (d : Byte), d[7] = false →
    (s.rxState = .idle → s.rxCnt = 0 →
      exec (.rxb d) s = .next { s with rxState := .hunt, out := [.frameInvalid .notStart 1], hostSent := [] }) ∧
    (s.rxState = .hunt → exec (.rxb d) s = .next { s with out := [.skipped], hostSent := [] })

/-- R70: length byte 1, clean or not. -/
def Obligations.LengthByteOne : Prop :=
  ∀ (s : State) (d : Byte), s.rxState = .lenHi →
    (d[7] = false →
      ∃ L : Len, L.toNat = 128 * d.toNat ∧
        exec (.rxb d) s = .next { s with rxLen := L, rxCnt := 2, rxState := .lenLo, out := [.nothing], hostSent := [] }) ∧
    (d[7] = true →
      exec (.rxb d) s =
        .next { s with rxId := d.setWidth 7, rxCnt := 1, out := [.frameInvalid .lenNotClean 1], hostSent := [] })

/-- R71: length byte 2 with its high bit set; `rx_len` keeps its value. -/
def Obligations.LengthByteTwoNotClean : Prop :=
  ∀ (s : State) (d : Byte), s.rxState = .lenLo → d[7] = true →
    exec (.rxb d) s =
      .next { s with rxId := d.setWidth 7, rxCnt := 1, rxState := .lenHi,
                     out := [.frameInvalid .lenNotClean 2], hostSent := [] }

/-- R72, with R74 for the empty payload: length byte 2, clean, by the length it completes. -/
def Obligations.LengthByteTwoClean : Prop :=
  ∀ (s : State) (d : Byte) (L : Len), s.rxState = .lenLo → d[7] = false →
    L = s.rxLen ||| d.setWidth 14 →
    (L.toNat < 3 →
      exec (.rxb d) s =
        .next { s with rxCnt := 0, rxState := .hunt, out := [.frameInvalid .lenRange 3], hostSent := [] }) ∧
    (L.toNat = 3 →
      exec (.rxb d) s =
        .next { s with rxLen := 3, rxCnt := 0, rxState := .idle,
                       out := [.delivered ⟨s.rxId, 3, []⟩ (dispatch ⟨s.rxId, 3, []⟩)], hostSent := [] }) ∧
    (3 < L.toNat →
      exec (.rxb d) s = .next { s with rxLen := L, rxCnt := 3, rxState := .payload, out := [.nothing], hostSent := [] })

/-- R73 and R74: a payload byte is stored in cell `rx_cnt - 3`, every other cell reads as before; the last one completes the
frame with the bytes of cells `0 .. rx_len - 4`, the one just written among them, and hands it over with its dispatch
result. -/
def Obligations.PayloadByteIsStoredAndTheLastOneDelivers : Prop :=
  ∀ (s : State) (d : Byte), s.rxState = .payload → 3 ≤ s.rxCnt.toNat → s.rxCnt.toNat < s.rxLen.toNat →
    Written s.rxBuf (s.rxCnt.toNat - 3) →
    ∃ m : Memory, m.read (s.rxCnt.toNat - 3) = some d ∧
      (∀ b, b ≠ s.rxCnt.toNat - 3 → m.read b = s.rxBuf.read b) ∧
      (s.rxCnt.toNat + 1 < s.rxLen.toNat →
        exec (.rxb d) s = .next { s with rxBuf := m, rxCnt := s.rxCnt + 1, out := [.nothing], hostSent := [] }) ∧
      (s.rxCnt.toNat + 1 = s.rxLen.toNat →
        ∃ p : List Byte, p.length = s.rxLen.toNat - 3 ∧ (∀ j, j < p.length → p[j]? = m.read j) ∧
          exec (.rxb d) s =
            .next { s with rxBuf := m, rxCnt := 0, rxState := .idle,
                           out := [.delivered ⟨s.rxId, s.rxLen, p⟩ (dispatch ⟨s.rxId, s.rxLen, p⟩)], hostSent := [] })

/-- R183: the three codes; a byte of the receive stream is answered `FrameInvalid` exactly under the condition of one of the
four rows of the table, with that row's cause and count of bytes given up, and the parser is left in that row's state. -/
def Obligations.FrameInvalidHasFourCauses : Prop :=
  (Cause.notStart.code = 1 ∧ Cause.lenNotClean.code = 2 ∧ Cause.lenRange.code = 3) ∧
  ∀ (s t : State) (d : Byte) (c : Cause) (k : Nat), exec (.rxb d) s = .next t →
    (t.out = [.frameInvalid c k] ↔
      (c = .notStart ∧ k = 1 ∧ s.rxState = .idle ∧ d[7] = false) ∨
      (c = .lenNotClean ∧ k = 1 ∧ s.rxState = .lenHi ∧ d[7] = true) ∨
      (c = .lenNotClean ∧ k = 2 ∧ s.rxState = .lenLo ∧ d[7] = true) ∨
      (c = .lenRange ∧ k = 3 ∧ s.rxState = .lenLo ∧ d[7] = false ∧ (s.rxLen ||| d.setWidth 14).toNat < 3)) ∧
    (t.out = [.frameInvalid c k] →
      (c = .lenNotClean → t.rxState = .lenHi ∧ t.rxId = d.setWidth 7 ∧ t.rxCnt = 1) ∧
      (c ≠ .lenNotClean → t.rxState = .hunt ∧ t.rxCnt = 0))

/-- After any `FrameInvalid` the parser is in `HUNT` or `LEN_HI`, and the next byte with its high bit set starts a frame
(spec/40_frame_decoder.md section 4, R82, which the spec derives). -/
def Obligations.ParserNeverStuckAfterFrameInvalid : Prop :=
  ∀ (s t : State) (d : Byte) (c : Cause) (k : Nat), exec (.rxb d) s = .next t → t.out = [.frameInvalid c k] →
    (t.rxState = .hunt ∨ t.rxState = .lenHi) ∧
    ∀ e : Byte, e[7] = true →
      ∃ u, exec (.rxb e) t = .next u ∧ u.rxState = .lenHi ∧ u.rxId = e.setWidth 7 ∧ u.rxCnt = 1

/-! ### Runs of the receive path -/

/-- The hardware form and the source's contract are the same decoder: from every state in sync, the `FrameInvalid` causes and
`Delivered` values of `RXS s` are what `decode_all(s)` emits, the pending remainder is `rx_cnt` bytes long, and it is empty
exactly when the run ends in `IDLE` or `HUNT` (spec/40_frame_decoder.md section 3, R77, which the spec derives and says of
the reset state; log 21). -/
def Obligations.RxsAgreesWithDecodeAll : Prop :=
  ∀ (s : State) (bs : List Byte), s.Inv → s.rxState = .idle →
    ∃ t, execList (rxs bs) s = .next t ∧
      t.out.filterMap outputEvent = (decodeAll bs).1 ∧
      (decodeAll bs).2.length = t.rxCnt.toNat ∧
      ((decodeAll bs).2 = [] ↔ (t.rxState = .idle ∨ t.rxState = .hunt))

/-- Byte accounting: no byte is counted twice and none is lost, byte by byte and over a run, from every state that meets the
invariant: the bytes held before and the bytes presented are those given out and those held after
(spec/40_frame_decoder.md section 4, R79, which the spec derives and says of runs from reset). -/
def Obligations.EveryByteIsAccountedFor : Prop :=
  (∀ (s : State) (d : Byte), s.Inv →
    ∃ t, exec (.rxb d) s = .next t ∧ t.Inv ∧
      s.rxCnt.toNat + 1 = (t.out.map bytesAccounted).sum + t.rxCnt.toNat) ∧
  (∀ (s : State) (bs : List Byte), s.Inv →
    ∃ t, execList (rxs bs) s = .next t ∧ t.Inv ∧
      s.rxCnt.toNat + bs.length = (t.out.map bytesAccounted).sum + t.rxCnt.toNat)

/-- Round trip (spec/41_frame_encoder.md section 3, R93, which the spec derives): what `encode_frame` builds decodes to the
frame it was built from, whole from the buffer and byte by byte from a state in sync or hunting; every proper prefix of it is
`Incomplete`. -/
def Obligations.EncodedFramesRoundTrip : Prop :=
  ∀ (id : MsgId) (payload : List Byte) (f : Frame), payload.length ≤ 16380 →
    f = ⟨id, BitVec.ofNat 14 (payload.length + 3), payload⟩ →
    tryDecodeFrame (encodeFrame id payload) = .complete f (payload.length + 3) ∧
    (∀ k, k < payload.length + 3 → tryDecodeFrame ((encodeFrame id payload).take k) = .incomplete) ∧
    ∀ s : State, (s.rxState = .idle ∨ s.rxState = .hunt) →
      ∃ t, execList (rxs (encodeFrame id payload)) s = .next t ∧ t.rxState = .idle ∧
        t.out = List.replicate (payload.length + 2) .nothing ++ [.delivered f (dispatch f)]

/-- A frame of a known id that arrives while the parser awaits one is delivered with its dispatch result, its payload is in
`rx_buf`, and nothing else changes (R47, R67 to R74, R109 to R120; that a MSG row is performed as `RXS` of its bytes is the
model's reading, log 5). All twelve MSG constructors. -/
def Obligations.WholeFramesAreDelivered : Prop :=
  ∀ row ∈ ([(0x06, Instr.msgBoardDump), (0x0d, Instr.msgBwtime), (0x0e, Instr.msgFieldUpdate), (0x0f, Instr.msgEeMoves),
      (0x10, Instr.msgBusAddress), (0x11, Instr.msgSerialNumber), (0x12, Instr.msgTrademark), (0x13, Instr.msgVersion),
      (0x14, Instr.msgBoardDump50Black), (0x15, Instr.msgBoardDump50White), (0x20, Instr.msgBatteryStatus),
      (0x22, Instr.msgLongSerial)] : List (MsgId × (Len → List Byte → Instr))),
    ∀ (L : Len) (payload : List Byte) (s : State), payload.length + 3 = L.toNat →
      (s.rxState = .idle ∨ s.rxState = .hunt) →
      ∃ m : Memory,
        exec (row.2 L payload) s =
          .next { s with rxState := .idle, rxId := row.1, rxLen := L, rxCnt := 0, rxBuf := m,
                         out := List.replicate (payload.length + 2) .nothing ++
                           [.delivered ⟨row.1, L, payload⟩ (dispatch ⟨row.1, L, payload⟩)],
                         hostSent := [] } ∧
        (∀ j, j < payload.length → m.read j = payload[j]?) ∧
        (∀ j, payload.length ≤ j → m.read j = s.rxBuf.read j)

/-- A frame of a known id whose header carries a length below 3 is malformed (R59, R72; log 5): `LEN_RANGE` on the second
length byte, and the parser hunts. -/
def Obligations.ShortFramesAreInvalid : Prop :=
  ∀ row ∈ ([(0x06, Instr.msgBoardDump), (0x0d, Instr.msgBwtime), (0x0e, Instr.msgFieldUpdate), (0x0f, Instr.msgEeMoves),
      (0x10, Instr.msgBusAddress), (0x11, Instr.msgSerialNumber), (0x12, Instr.msgTrademark), (0x13, Instr.msgVersion),
      (0x14, Instr.msgBoardDump50Black), (0x15, Instr.msgBoardDump50White), (0x20, Instr.msgBatteryStatus),
      (0x22, Instr.msgLongSerial)] : List (MsgId × (Len → List Byte → Instr))),
    ∀ (L : Len) (s : State), L.toNat < 3 → (s.rxState = .idle ∨ s.rxState = .hunt) →
      exec (row.2 L []) s =
        .next { s with rxState := .hunt, rxId := row.1, rxLen := 0, rxCnt := 0,
                       out := [.nothing, .nothing, .frameInvalid .lenRange 3], hostSent := [] }

/-- Operations are performed one after the other in the order issued, and so are their outputs handed over: a sequence is its
first part and then its second, neither seeing how it was cut (R39, R40). -/
def Obligations.SequencesCompose : Prop :=
  ∀ (is js : List Instr) (s u : State),
    execList (is ++ js) s = .next u ↔
      ∃ t v, execList is s = .next t ∧ execList js t = .next v ∧
        u = { v with out := t.out ++ v.out, hostSent := t.hostSent ++ v.hostSent }

/-! ### The buffer-level functions -/

/-- R76: `resync` drops the first byte and then exactly the bytes in front whose high bit is clear. -/
def Obligations.ResyncFindsTheNextHighByte : Prop :=
  resync [] = [] ∧
  ∀ (x : Byte) (buf : List Byte), ∃ dropped : List Byte, buf = dropped ++ resync (x :: buf) ∧
    (∀ b ∈ dropped, b[7] = false) ∧
    (resync (x :: buf) = [] ∨ ∃ h rest, resync (x :: buf) = h :: rest ∧ h[7] = true)

/-- A decision of `try_decode_frame` survives more bytes: extending a buffer never changes an `Invalid` or a `Complete`
(spec/92_eei_decisions.md D4). -/
def Obligations.BufferDecisionsSurviveMoreBytes : Prop :=
  ∀ buf more : List Byte, tryDecodeFrame buf ≠ .incomplete → tryDecodeFrame (buf ++ more) = tryDecodeFrame buf

/-! ### The encoder -/

/-- The halves of a length, their high bits, and the law that they reassemble (spec/41_frame_encoder.md section 2, R87; the
definition of the high half, R86, is the spec's own derivation). -/
def Obligations.LengthHalvesReassemble : Prop :=
  (∀ L : Nat, (llhSeven L).toNat = L / 128 % 128 ∧ (lllSeven L).toNat = L % 128 ∧
    (llhSeven L)[7] = false ∧ (lllSeven L)[7] = false) ∧
  (∀ L : Nat, L ≤ 0x3FFF → ((llhSeven L).toNat <<< 7) ||| (lllSeven L).toNat = L)

/-- R88 and R90: `TXF` of a payload that fits answers the frame's bytes; one that does not fit a 14-bit total length is
refused, no byte produced. No state changes. -/
def Obligations.TxfAnswersTheFrameOrRefuses : Prop :=
  ∀ (id : MsgId) (payload : List Byte) (s : State),
    (payload.length ≤ 16380 →
      exec (.txf id payload) s =
        .next { s with out := [.bytes ([0x80 ||| id.setWidth 8, llhSeven (payload.length + 3),
                                        lllSeven (payload.length + 3)] ++ payload)],
                       hostSent := [] }) ∧
    (16380 < payload.length →
      exec (.txf id payload) s = .next { s with out := [.encodeRefused payload.length], hostSent := [] })

/-- The shape of every `TXF` output (spec/41_frame_encoder.md section 3, R94, which the spec derives). -/
def Obligations.TxfOutputHasAFrameHeader : Prop :=
  ∀ (id : MsgId) (payload seq : List Byte) (s t : State), exec (.txf id payload) s = .next t → t.out = [.bytes seq] →
    ∃ w0 w1 w2 : Byte, seq = w0 :: w1 :: w2 :: payload ∧
      w0[7] = true ∧ w1[7] = false ∧ w2[7] = false ∧
      seq.length = (w1.toNat <<< 7) ||| w2.toNat ∧ 3 ≤ seq.length

/-! ### The checksum -/

/-- R96. -/
def Obligations.CsclrZeroesTheAccumulator : Prop :=
  ∀ s : State, exec .csclr s = .next { s with csAcc := 0, out := [.nothing], hostSent := [] }

/-- R97: the sum modulo 128, equally of the low seven bits. -/
def Obligations.CsaddAddsModulo128 : Prop :=
  ∀ (s : State) (d : Byte), ∃ v : Sum7, v.toNat = (s.csAcc.toNat + d.toNat) % 128 ∧
    v.toNat = (s.csAcc.toNat + (d.setWidth 7).toNat) % 128 ∧
    exec (.csadd d) s = .next { s with csAcc := v, out := [.sum v], hostSent := [] }

/-- R100: all 8 bits are compared, nothing is written, and a byte with its high bit set never matches. -/
def Obligations.CschkComparesAllEightBits : Prop :=
  ∀ (s : State) (d : Byte),
    (d.toNat = s.csAcc.toNat → exec (.cschk d) s = .next { s with out := [.csOk], hostSent := [] }) ∧
    (d.toNat ≠ s.csAcc.toNat →
      exec (.cschk d) s = .next { s with out := [.checksumMismatch s.csAcc d], hostSent := [] }) ∧
    (d[7] = true → d.toNat ≠ s.csAcc.toNat)

/-- R95: `checksum` is the sum modulo 128 and is never observed with its high bit set. -/
def Obligations.ChecksumIsTheSumModulo128 : Prop :=
  ∀ bs : List Byte, (checksum bs).toNat = (bs.map BitVec.toNat).sum % 128 ∧ (checksumByte (checksum bs))[7] = false

/-- The pseudo-operations `CSUM` and `CSVERIFY`, from any state: the accumulator and the answer are the checksum of the bytes,
and the check passes exactly for it (spec/42_checksum.md section 2, R101 and R98, which the spec derives). -/
def Obligations.CsumAndCsverifyComputeTheChecksum : Prop :=
  ∀ (s : State) (bs : List Byte) (c : Byte),
    (∃ t, execList (csum bs) s = .next t ∧ lastSum t.out = checksum bs ∧ t.csAcc = checksum bs) ∧
    (∃ t, execList (csverify bs c) s = .next t ∧
      (t.out.getLast? = some .csOk ↔ c = checksumByte (checksum bs)))

/-- What the checksum detects and what it misses (spec/42_checksum.md section 3, R106 and R98, which the spec derives). -/
def Obligations.WhatTheChecksumDetects : Prop :=
  (∀ xs ys : List Byte, xs.Perm ys → checksum xs = checksum ys) ∧
  (∀ xs ys : List Byte, xs.map (BitVec.setWidth 7) = ys.map (BitVec.setWidth 7) → checksum xs = checksum ys) ∧
  (∀ xs ys : List Byte, checksum xs = checksum ys ↔ byteSum xs % 128 = byteSum ys % 128) ∧
  (∀ (xs ys : List Byte) (d e : Byte), d.setWidth 7 ≠ e.setWidth 7 → checksum (xs ++ d :: ys) ≠ checksum (xs ++ e :: ys)) ∧
  (∀ xs ys : List Byte, (checksum (xs ++ ys)).toNat = ((checksum xs).toNat + (checksum ys).toNat) % 128)

/-- A bus command built from the block's own sums checks, its command byte has its high bit set and carries the id, the other
three bytes are 7-bit-clean, and its address reads back (R55, R102, R103, R177; the split of the address is the spec's own
decision D16, log 20). -/
def Obligations.BusCommandsCarryTheirChecksum : Prop :=
  ∀ (s : State) (id : BitVec 7) (address : BitVec 14),
    ∃ t v, execList [.csclr, .csadd (busCommandByte id), .csadd (addressHigh address), .csadd (addressLow address)] s =
        .next t ∧
      t.out.getLast? = some (.sum v) ∧
      busCommand id address = [busCommandByte id, addressHigh address, addressLow address, v.setWidth 8] ∧
      envelopeChecks (busCommand id address) = true ∧
      (busCommandByte id)[7] = true ∧ (busCommandByte id).setWidth 7 = id ∧
      (∀ b ∈ (busCommand id address).tail, b[7] = false) ∧
      128 * (addressHigh address).toNat + (addressLow address).toNat = address.toNat

/-! ### The dispatcher -/

/-- R107: the stand-alone `DISP` answers the dispatch result of the frame its operands describe, or refuses a length below 3,
and changes no state. -/
def Obligations.DispAnswersTheDispatchResult : Prop :=
  ∀ (id : MsgId) (L : Len) (payload : List Byte) (s : State),
    (payload.length + 3 = L.toNat →
      exec (.disp id L payload) s = .next { s with out := [.dispatched (dispatch ⟨id, L, payload⟩)], hostSent := [] }) ∧
    (L.toNat < 3 → exec (.disp id L payload) s = .next { s with out := [.opRefused 6], hostSent := [] })

/-- R111, R113, R116, R117, R118, R120: the kinds of one fixed size, and the named fields of a field update (R111). The board
dump's size (R109) is here too; its cell numbering, which the spec derives, is not. -/
def Obligations.FixedSizeMessages : Prop :=
  (∀ row ∈ ([(0x06, .boardDump, 67), (0x0e, .fieldUpdate, 5), (0x10, .busAddress, 5), (0x13, .version, 5),
      (0x14, .boardDump50Black, 53), (0x15, .boardDump50White, 53), (0x22, .longSerial, 13)] :
        List (MsgId × MessageKind × Nat)),
    ∀ (L : Len) (payload : List Byte),
      dispatch ⟨row.1, L, payload⟩ =
        if L.toNat = row.2.2 then .message row.2.1 payload else .lengthMismatch row.1 row.2.2 row.2.2 L.toNat) ∧
  (∀ p0 p1 : Byte, fieldUpdateField [p0, p1] = some p0 ∧ fieldUpdatePiece [p0, p1] = some p1) ∧
  pieceWpawn = 1

/-- R112, R114, R115, R127: the kinds of any size, the empty payload among them. -/
def Obligations.VariableSizeMessages : Prop :=
  ∀ row ∈ ([(0x0f, .eeMoves), (0x11, .serialNumber), (0x12, .trademark)] : List (MsgId × MessageKind)),
    ∀ (L : Len) (payload : List Byte), dispatch ⟨row.1, L, payload⟩ = .message row.2 payload

/-- R119: battery status, total lengths 7 to 11 inclusive. -/
def Obligations.BatteryStatusRange : Prop :=
  ∀ (L : Len) (payload : List Byte),
    dispatch ⟨0x20, L, payload⟩ =
      if 7 ≤ L.toNat ∧ L.toNat ≤ 11 then .message .batteryStatus payload else .lengthMismatch 0x20 7 11 L.toNat

/-- R110: a BWTIME frame of total length 10 is an acknowledgement if either marker nibble stands, else its seven
bytes unchanged; with any other length the nibbles are not looked at. -/
def Obligations.BwtimeFrames : Prop :=
  (∀ b0 b1 b2 b3 b4 b5 b6 : Byte,
    ((b0.setWidth 4 = 0xA ∨ b3.setWidth 4 = 0xA) →
      dispatch ⟨0x0d, 10, [b0, b1, b2, b3, b4, b5, b6]⟩ = .clockAck (ackUnpack ⟨b0, b1, b2, b3, b4, b5, b6⟩)) ∧
    (¬(b0.setWidth 4 = 0xA ∨ b3.setWidth 4 = 0xA) →
      dispatch ⟨0x0d, 10, [b0, b1, b2, b3, b4, b5, b6]⟩ = .clockTime ⟨b0, b1, b2, b3, b4, b5, b6⟩)) ∧
  (∀ (L : Len) (payload : List Byte), L.toNat ≠ 10 →
    dispatch ⟨0x0d, L, payload⟩ = .lengthMismatch 0x0d 10 10 L.toNat)

/-- R121: the 116 other ids are unknown whatever their length; no size check is made. -/
def Obligations.UnknownIds : Prop :=
  ∀ (id : MsgId) (L : Len) (payload : List Byte),
    dispatch ⟨id, L, payload⟩ = .unknownMessage id ↔
      id ∉ ([0x06, 0x0d, 0x0e, 0x0f, 0x10, 0x11, 0x12, 0x13, 0x14, 0x15, 0x20, 0x22] : List MsgId)

/-- R122: a frame is answered `LengthMismatch` exactly when its id is in the table with a size or a range that its length does
not satisfy; the answer names the id, the size or range, and the length as it is. -/
def Obligations.LengthMismatchReportsTheDiscrepancy : Prop :=
  ∀ (f : Frame) (id : MsgId) (lo hi actual : Nat), f.payload.length + 3 = f.length.toNat →
    (dispatch f = .lengthMismatch id lo hi actual ↔
      id = f.id ∧ actual = f.length.toNat ∧ (actual < lo ∨ hi < actual) ∧
        ∃ row ∈ dispatchTable, row.id = f.id ∧ ((row.rule = .fixed lo ∧ hi = lo) ∨ row.rule = .range lo hi))

/-! ### The clock unpacker -/

/-- R131: only bits 3 to 0 of `b0` and `b3` decide. -/
def Obligations.BwclsLooksAtTwoNibbles : Prop :=
  ∀ (p : BwPayload) (s : State),
    ((p.b0.setWidth 4 = 0xA ∨ p.b3.setWidth 4 = 0xA) →
      exec (.bwcls p) s = .next { s with out := [.isAck], hostSent := [] }) ∧
    (¬(p.b0.setWidth 4 = 0xA ∨ p.b3.setWidth 4 = 0xA) →
      exec (.bwcls p) s = .next { s with out := [.isTime], hostSent := [] })

/-- R133 and R136: the four bytes bit by bit, and the fields read from them. -/
def Obligations.AckuRebuildsTheFourBytes : Prop :=
  ∀ (p : BwPayload) (s : State), ∃ a : ClockAck,
    exec (.acku p) s = .next { s with out := [.clockAck a], hostSent := [] } ∧
    (a.ack0.setWidth 7 = p.b1.setWidth 7 ∧ a.ack0[7] = p.b3[4]) ∧
    (a.ack1.setWidth 7 = p.b2.setWidth 7 ∧ a.ack1[7] = p.b3[5]) ∧
    (a.ack2.setWidth 7 = p.b4.setWidth 7 ∧ a.ack2[7] = p.b0[4]) ∧
    (a.ack3.setWidth 7 = p.b5.setWidth 7 ∧ a.ack3[7] = p.b0[5]) ∧
    a.status = ackStatus a.ack0 ∧ a.auto = a.ack1[7] ∧ a.sub = a.ack1.setWidth 7 ∧ a.kind = ackSubkind a.sub

/-- R135: the four statuses and the derived predicate. -/
def Obligations.AckStatusReadsAckZero : Prop :=
  ∀ x : Byte, (ackStatus x = .normal ↔ x = 0x10) ∧ (ackStatus x = .rejected ↔ x = 0x40) ∧
    (ackStatus x = .errorFlag ↔ x[7] = true) ∧
    (ackStatus x = .other ↔ x ≠ 0x10 ∧ x ≠ 0x40 ∧ x[7] = false) ∧
    (ackError (ackStatus x) = true ↔ x = 0x40 ∨ x[7] = true)

/-- R137: the one entry of `ACK_SUBKIND` that is fixed, and the source's example: an acknowledgement with `ack0 = 0x10` and
`ack1 = 0x81` is reported non-error, auto-generated, ready, whatever the open entries are. -/
def Obligations.ReadyUnsolicitedAck : Prop :=
  ackSubkind 0x01 = .ready ∧
  ∀ p : BwPayload, (ackUnpack p).ack0 = 0x10 → (ackUnpack p).ack1 = 0x81 →
    (ackUnpack p).status = .normal ∧ ackError (ackUnpack p).status = false ∧ (ackUnpack p).auto = true ∧
      (ackUnpack p).sub = 0x01 ∧ (ackUnpack p).kind = .ready

/-- The inverse packing: its bytes are 7-bit-clean, carry both markers, and unpack to what was packed
(spec/44_clock_unpacker.md section 2, R134, which the spec derives). -/
def Obligations.PackedAcksUnpack : Prop :=
  ∀ (a0 a1 a2 a3 : Byte) (b6 : BitVec 7) (p : BwPayload), p = ackPack a0 a1 a2 a3 b6 →
    (ackUnpack p).ack0 = a0 ∧ (ackUnpack p).ack1 = a1 ∧ (ackUnpack p).ack2 = a2 ∧ (ackUnpack p).ack3 = a3 ∧
      isAck p.b0 p.b3 = true ∧ p.b0.setWidth 4 = 0xA ∧ p.b3.setWidth 4 = 0xA ∧
      (∀ b ∈ bwBytes p, b[7] = false)

/-- What the reconstruction ignores: `b6`, bit 7 of `b1`, `b2`, `b4`, `b5`, and all of `b0` and `b3` but bits 4 and 5
(spec/44_clock_unpacker.md section 2, R134, which the spec derives). -/
def Obligations.IgnoredBitsDoNotMatter : Prop :=
  ∀ p q : BwPayload, p.b1.setWidth 7 = q.b1.setWidth 7 → p.b2.setWidth 7 = q.b2.setWidth 7 →
    p.b4.setWidth 7 = q.b4.setWidth 7 → p.b5.setWidth 7 = q.b5.setWidth 7 →
    p.b0[4] = q.b0[4] → p.b0[5] = q.b0[5] →
    p.b3[4] = q.b3[4] → p.b3[5] = q.b3[5] →
    ackUnpack p = ackUnpack q

/-! ### The port, the command bytes, the units -/

/-- R60: the reserved select codes. -/
def Obligations.ReservedSelectCodesAreRefused : Prop :=
  ∀ row ∈ ([(Instr.reserved9, 9), (.reserved10, 10), (.reserved11, 11), (.reserved12, 12), (.reserved13, 13),
      (.reserved14, 14), (.reserved15, 15)] : List (Instr × BitVec 4)),
    ∀ s : State, exec row.1 s = .next { s with out := [.opRefused row.2], hostSent := [] }

/-- A command byte passes the block by: no register, no cell, no output; the byte is what the host put on the transport
(R145; that the model records it in `hostSent` is its choice, log 6). All twenty-two CMD constructors, with their codes (R146 to
R167). -/
def Obligations.CommandsLeaveTheBlockAlone : Prop :=
  ∀ row ∈ ([(.cmdReset, 0x40), (.cmdSendClock, 0x41), (.cmdSendBoard, 0x42), (.cmdSendUpdate, 0x43),
      (.cmdSendUpdateBoard, 0x44), (.cmdSerialNumber, 0x45), (.cmdBusAddress, 0x46), (.cmdTrademark, 0x47),
      (.cmdEeMoves, 0x49), (.cmdUpdateNice, 0x4b), (.cmdBatteryStatus, 0x4c), (.cmdVersion, 0x4d),
      (.cmdBoardDumpBlack, 0x50), (.cmdScanBlack, 0x51), (.cmdBoardDumpWhite, 0x52), (.cmdScanWhite, 0x53),
      (.cmdScanAll, 0x54), (.cmdLongSerial, 0x55), (.cmdSetLeds, 0x60), (.cmdToBusmode, 0x4a),
      (.cmdStartBootloader, 0x4e), (.cmdClockMessage, 0x2b)] : List (Instr × Byte)),
    encode row.1 = ⟨.cmd, [row.2]⟩ ∧
      ∀ s : State, exec row.1 s = .next { s with out := [], hostSent := [row.2] }

/-- A clock sub-command byte likewise (R168; log 7). All eight CLKSUB constructors, with their codes (R169 to R176). -/
def Obligations.SubCommandsLeaveTheBlockAlone : Prop :=
  ∀ row ∈ ([(.clkDisplay, 0x01), (.clkIcons, 0x02), (.clkEnd, 0x03), (.clkButton, 0x08), (.clkVersion, 0x09),
      (.clkSetAndRun, 0x0a), (.clkBeep, 0x0b), (.clkAscii, 0x0c)] : List (Instr × Byte)),
    encode row.1 = ⟨.clksub, [row.2]⟩ ∧
      ∀ s : State, exec row.1 s = .next { s with out := [], hostSent := [row.2] }

/-- The code set (spec/45_commands.md section 5): distinct codes, none a frame start, so that a decoder in sync reports one
and a hunting decoder skips it (V45-1); their checksum is 0x5b (V45-2). -/
def Obligations.CommandCodesAreDistinctAndClean : Prop :=
  commandCodes.length = 22 ∧ commandCodes.Nodup ∧ subCommandCodes.length = 8 ∧ subCommandCodes.Nodup ∧
  (∀ c ∈ commandCodes ++ subCommandCodes, c.toNat < 0x80 ∧
    ∀ s : State,
      (s.rxState = .idle → s.rxCnt = 0 →
        exec (.rxb c) s = .next { s with rxState := .hunt, out := [.frameInvalid .notStart 1], hostSent := [] }) ∧
      (s.rxState = .hunt → exec (.rxb c) s = .next { s with out := [.skipped], hostSent := [] })) ∧
  checksum commandCodes = 0x5b

/-- Which operation reaches which state (spec/20_memory.md section 1, R33): only `RXB`, a frame on the receive stream and
`RST` touch the receive registers, only the first two the buffer, only the checksum operations and `RST` the accumulator. That
none touches the port list is the model's choice (log 1), as the list itself is. -/
def Obligations.EachOperationTouchesOnlyItsUnit : Prop :=
  ∀ (i : Instr) (s t : State), exec i s = .next t →
    t.port = s.port ∧
    ((encode i).format ≠ .msg → (∀ d, i ≠ .rxb d) → t.rxBuf = s.rxBuf ∧ (i ≠ .rst → t.rxRegs = s.rxRegs)) ∧
    (i ≠ .rst → i ≠ .csclr → (∀ d, i ≠ .csadd d) → t.csAcc = s.csAcc)

/-- The units share no state: a checksum operation or a stateless one issued between two bytes changes neither what `RXB`
answers nor what it leaves, and `RXB` changes neither what that operation answers nor the accumulator it leaves
(spec/20_memory.md section 7, R44, which the spec derives). -/
def Obligations.UnitsCommute : Prop :=
  ∀ (i : Instr) (d : Byte) (s s1 t : State), (encode i).format = .op → i ≠ .rst → (∀ e, i ≠ .rxb e) →
    exec i s = .next s1 → exec (.rxb d) s = .next t →
    ∃ u v, exec (.rxb d) s1 = .next u ∧ u.out = t.out ∧ u.rxRegs = t.rxRegs ∧ u.rxBuf = t.rxBuf ∧
      exec i t = .next v ∧ v.out = s1.out ∧ v.csAcc = s1.csAcc ∧ u.csAcc = v.csAcc ∧
      v.rxRegs = u.rxRegs ∧ v.rxBuf = u.rxBuf

/-- What the buffer holds beyond the frame being received is unobservable: two states that differ in nothing else answer the
same to every run of well-formed instructions (R19, R28, R212; log 10). -/
def Obligations.BufferLeftoversAreUnobservable : Prop :=
  ∀ (is : List Instr) (s t : State), s.Inv → t.Inv → SameView s t → (∀ i ∈ is, i.wf = true) →
    ∃ u v, execList is s = .next u ∧ execList is t = .next v ∧ u.out = v.out ∧ SameView u v

/-- Instances share nothing (R205): an operation on one is that operation on its state, and leaves every other as it was. -/
def Obligations.InstancesAreIndependent : Prop :=
  ∀ (n : Nat) (bank after : Vector State n) (k j : Fin n) (i : Instr), execAt k i bank = .next after →
    exec i bank[k] = .next after[k] ∧ (j ≠ k → after[j] = bank[j])
end

