-- ==== Sys2Proof/Laws/Memory.lean ====
section
/-! SUPPORT. The laws of the payload buffer: reading after writing, the canonical form, and what the checked accesses
answer. -/

namespace Sys2Proof.Machine

@[simp] theorem Memory.read_nil (a : Nat) : Memory.read [] a = none := rfl

theorem Memory.read_cons (k : Nat) (v : Byte) (m : Memory) (a : Nat) :
    Memory.read ((k, v) :: m) a = if k = a then some v else Memory.read m a := rfl

/-- A cell reads as it was written. -/
@[simp] theorem Memory.read_write_same (m : Memory) (a : Nat) (v : Byte) : (m.write a v).read a = some v := by
  induction m with
  | nil => simp [Memory.write, Memory.read]
  | cons c m ih =>
    obtain ⟨k, w⟩ := c
    unfold Memory.write
    split_ifs with h1 h2
    · simp [Memory.read]
    · simp [Memory.read]
    · simp [Memory.read, h1, ih]

/-- Every other cell reads as before. -/
theorem Memory.read_write_other (m : Memory) (a b : Nat) (v : Byte) (h : b ≠ a) :
    (m.write a v).read b = m.read b := by
  induction m with
  | nil => simp [Memory.write, Memory.read, Ne.symm h]
  | cons c m ih =>
    obtain ⟨k, w⟩ := c
    unfold Memory.write
    split_ifs with h1 h2
    · subst h1
      simp [Memory.read, Ne.symm h]
    · simp [Memory.read, Ne.symm h]
    · simp only [Memory.read_cons, ih]

theorem Memory.read_write (m : Memory) (a b : Nat) (v : Byte) :
    (m.write a v).read b = if b = a then some v else m.read b := by
  split_ifs with h
  · rw [h, Memory.read_write_same]
  · exact Memory.read_write_other m a b v h

/-- Writing keeps the indexes rising above any bound they and the new index respect. -/
theorem Memory.risesFrom_write (m : Memory) (lo a : Nat) (v : Byte) (hlo : lo ≤ a) (ha : a < Config.rxBufSize)
    (h : Memory.risesFrom lo m = true) : Memory.risesFrom lo (m.write a v) = true := by
  induction m generalizing lo with
  | nil => simp [Memory.write, Memory.risesFrom, hlo, ha]
  | cons c m ih =>
    obtain ⟨k, w⟩ := c
    simp only [Memory.risesFrom, Bool.and_eq_true, decide_eq_true_eq] at h
    unfold Memory.write
    split_ifs with h1 h2
    · subst h1
      simp [Memory.risesFrom, hlo, ha, h.2]
    · simp only [Memory.risesFrom, Bool.and_eq_true, decide_eq_true_eq]
      exact ⟨⟨hlo, ha⟩, ⟨by omega, h.1.2⟩, h.2⟩
    · simp only [Memory.risesFrom, Bool.and_eq_true, decide_eq_true_eq]
      exact ⟨h.1, ih (k + 1) (by omega) h.2⟩

/-- Every write inside the buffer keeps the canonical form. -/
theorem Memory.wf_write (m : Memory) (a : Nat) (v : Byte) (ha : a < Config.rxBufSize) (h : m.wf = true) :
    (m.write a v).wf = true :=
  Memory.risesFrom_write m 0 a v (Nat.zero_le a) ha h

/-- All that a checked read can answer. -/
theorem memRead_eq_ok_iff (m : Memory) (a : Nat) (v : Byte) :
    memRead m a = .ok v ↔ a < Config.rxBufSize ∧ m.read a = some v := by
  unfold memRead
  split_ifs with h
  · cases hr : m.read a <;> simp [h]
  · simp [h]

/-- All that a checked write can answer. -/
theorem memWrite_eq_ok_iff (m m' : Memory) (a : Nat) (v : Byte) :
    memWrite m a v = .ok m' ↔ a < Config.rxBufSize ∧ m' = m.write a v := by
  unfold memWrite
  split_ifs with h
  · simp [h, eq_comm]
  · simp [h]

/-- A checked write keeps the canonical form. -/
theorem memWrite_wf (m m' : Memory) (a : Nat) (v : Byte) (hw : memWrite m a v = .ok m') (h : m.wf = true) :
    m'.wf = true := by
  obtain ⟨ha, rfl⟩ := (memWrite_eq_ok_iff m m' a v).1 hw
  exact Memory.wf_write m a v ha h

/-- All that reading a run of cells can answer: the bytes of the cells, in order. -/
theorem readCells_eq_ok_iff (m : Memory) (a n : Nat) (vs : List Byte) :
    readCells m a n = .ok vs ↔
      vs.length = n ∧ ∀ i, i < n → a + i < Config.rxBufSize ∧ m.read (a + i) = vs[i]? := by
  induction n generalizing a vs with
  | zero =>
    simp only [readCells, Except.ok.injEq, Nat.not_lt_zero, false_imp_iff, implies_true, and_true]
    constructor
    · rintro rfl; rfl
    · intro h; exact (List.eq_nil_of_length_eq_zero h).symm
  | succ n ih =>
    unfold readCells
    cases hr : memRead m a with
    | error f =>
      simp only [reduceCtorEq, false_iff, not_and]
      intro hlen hall
      obtain ⟨h0, h1⟩ := hall 0 (Nat.succ_pos n)
      obtain ⟨v, vs', rfl⟩ := List.exists_cons_of_length_eq_add_one hlen
      have := (memRead_eq_ok_iff m a v).2 ⟨by simpa using h0, by simpa using h1⟩
      simp [this] at hr
    | ok v =>
      obtain ⟨ha, hv⟩ := (memRead_eq_ok_iff m a v).1 hr
      cases hrest : readCells m (a + 1) n with
      | error f =>
        simp only [reduceCtorEq, false_iff, not_and]
        intro hlen hall
        obtain ⟨w, vs', rfl⟩ := List.exists_cons_of_length_eq_add_one hlen
        have := (ih (a + 1) vs').2 ⟨by simpa using hlen, fun i hi => by
          have := hall (i + 1) (by omega)
          simpa [Nat.add_assoc, Nat.add_comm 1 i] using this⟩
        simp [this] at hrest
      | ok ws =>
        obtain ⟨hlen, hall⟩ := (ih (a + 1) ws).1 hrest
        simp only [Except.ok.injEq]
        constructor
        · rintro rfl
          refine ⟨by simp [hlen], fun i hi => ?_⟩
          cases i with
          | zero => simpa using ⟨ha, hv⟩
          | succ i =>
            have := hall i (by omega)
            simpa [Nat.add_assoc, Nat.add_comm 1 i] using this
        · rintro ⟨hl, hall'⟩
          obtain ⟨w, vs', rfl⟩ := List.exists_cons_of_length_eq_add_one hl
          have h0 := (hall' 0 (Nat.succ_pos n)).2
          have hw : v = w := by simpa [hv] using h0
          have := (ih (a + 1) vs').2 ⟨by simpa using hl, fun i hi => by
            have := hall' (i + 1) (by omega)
            simpa [Nat.add_assoc, Nat.add_comm 1 i] using this⟩
          rw [hrest] at this
          simp only [Except.ok.injEq] at this
          rw [hw, this]

end Sys2Proof.Machine
end

