-- ==== Sys2Proof/Laws/State.lean ====
section
/-! SUPPORT. One lemma per field per update of the state, true by rfl, so that no proof unfolds a record update. -/

namespace Sys2Proof.Machine

variable (s : State)

@[simp] theorem State.answer_rxState (o : Output) : (s.answer o).rxState = s.rxState := rfl
@[simp] theorem State.answer_rxId (o : Output) : (s.answer o).rxId = s.rxId := rfl
@[simp] theorem State.answer_rxLen (o : Output) : (s.answer o).rxLen = s.rxLen := rfl
@[simp] theorem State.answer_rxCnt (o : Output) : (s.answer o).rxCnt = s.rxCnt := rfl
@[simp] theorem State.answer_rxBuf (o : Output) : (s.answer o).rxBuf = s.rxBuf := rfl
@[simp] theorem State.answer_csAcc (o : Output) : (s.answer o).csAcc = s.csAcc := rfl
@[simp] theorem State.answer_port (o : Output) : (s.answer o).port = s.port := rfl
@[simp] theorem State.answer_out (o : Output) : (s.answer o).out = [o] := rfl
@[simp] theorem State.answer_hostSent (o : Output) : (s.answer o).hostSent = [] := rfl

@[simp] theorem State.passBy_rxState (bytes : List Byte) : (s.passBy bytes).rxState = s.rxState := rfl
@[simp] theorem State.passBy_rxId (bytes : List Byte) : (s.passBy bytes).rxId = s.rxId := rfl
@[simp] theorem State.passBy_rxLen (bytes : List Byte) : (s.passBy bytes).rxLen = s.rxLen := rfl
@[simp] theorem State.passBy_rxCnt (bytes : List Byte) : (s.passBy bytes).rxCnt = s.rxCnt := rfl
@[simp] theorem State.passBy_rxBuf (bytes : List Byte) : (s.passBy bytes).rxBuf = s.rxBuf := rfl
@[simp] theorem State.passBy_csAcc (bytes : List Byte) : (s.passBy bytes).csAcc = s.csAcc := rfl
@[simp] theorem State.passBy_port (bytes : List Byte) : (s.passBy bytes).port = s.port := rfl
@[simp] theorem State.passBy_out (bytes : List Byte) : (s.passBy bytes).out = [] := rfl
@[simp] theorem State.passBy_hostSent (bytes : List Byte) : (s.passBy bytes).hostSent = bytes := rfl

@[simp] theorem State.hold_rxState : (s.hold).rxState = s.rxState := rfl
@[simp] theorem State.hold_rxId : (s.hold).rxId = s.rxId := rfl
@[simp] theorem State.hold_rxLen : (s.hold).rxLen = s.rxLen := rfl
@[simp] theorem State.hold_rxCnt : (s.hold).rxCnt = s.rxCnt := rfl
@[simp] theorem State.hold_rxBuf : (s.hold).rxBuf = s.rxBuf := rfl
@[simp] theorem State.hold_csAcc : (s.hold).csAcc = s.csAcc := rfl
@[simp] theorem State.hold_port : (s.hold).port = s.port := rfl
@[simp] theorem State.hold_out : (s.hold).out = [] := rfl
@[simp] theorem State.hold_hostSent : (s.hold).hostSent = [] := rfl

@[simp] theorem State.startFrame_rxState (d : Byte) : (s.startFrame d).rxState = .lenHi := rfl
@[simp] theorem State.startFrame_rxId (d : Byte) : (s.startFrame d).rxId = low7 d := rfl
@[simp] theorem State.startFrame_rxLen (d : Byte) : (s.startFrame d).rxLen = s.rxLen := rfl
@[simp] theorem State.startFrame_rxCnt (d : Byte) : (s.startFrame d).rxCnt = 1 := rfl
@[simp] theorem State.startFrame_rxBuf (d : Byte) : (s.startFrame d).rxBuf = s.rxBuf := rfl
@[simp] theorem State.startFrame_csAcc (d : Byte) : (s.startFrame d).csAcc = s.csAcc := rfl
@[simp] theorem State.startFrame_port (d : Byte) : (s.startFrame d).port = s.port := rfl
@[simp] theorem State.startFrame_out (d : Byte) : (s.startFrame d).out = s.out := rfl
@[simp] theorem State.startFrame_hostSent (d : Byte) : (s.startFrame d).hostSent = s.hostSent := rfl

@[simp] theorem State.complete_rxState (id : MsgId) (L : Len) (payload : List Byte) : (s.complete id L payload).rxState = .idle := rfl
@[simp] theorem State.complete_rxId (id : MsgId) (L : Len) (payload : List Byte) : (s.complete id L payload).rxId = s.rxId := rfl
@[simp] theorem State.complete_rxLen (id : MsgId) (L : Len) (payload : List Byte) : (s.complete id L payload).rxLen = s.rxLen := rfl
@[simp] theorem State.complete_rxCnt (id : MsgId) (L : Len) (payload : List Byte) : (s.complete id L payload).rxCnt = 0 := rfl
@[simp] theorem State.complete_rxBuf (id : MsgId) (L : Len) (payload : List Byte) : (s.complete id L payload).rxBuf = s.rxBuf := rfl
@[simp] theorem State.complete_csAcc (id : MsgId) (L : Len) (payload : List Byte) : (s.complete id L payload).csAcc = s.csAcc := rfl
@[simp] theorem State.complete_port (id : MsgId) (L : Len) (payload : List Byte) : (s.complete id L payload).port = s.port := rfl
@[simp] theorem State.complete_out (id : MsgId) (L : Len) (payload : List Byte) : (s.complete id L payload).out = [.delivered ⟨id, L, payload⟩ (dispatch ⟨id, L, payload⟩)] := rfl
@[simp] theorem State.complete_hostSent (id : MsgId) (L : Len) (payload : List Byte) : (s.complete id L payload).hostSent = [] := rfl

@[simp] theorem State.withEarlier_rxState (e : State) : (s.withEarlier e).rxState = s.rxState := rfl
@[simp] theorem State.withEarlier_rxId (e : State) : (s.withEarlier e).rxId = s.rxId := rfl
@[simp] theorem State.withEarlier_rxLen (e : State) : (s.withEarlier e).rxLen = s.rxLen := rfl
@[simp] theorem State.withEarlier_rxCnt (e : State) : (s.withEarlier e).rxCnt = s.rxCnt := rfl
@[simp] theorem State.withEarlier_rxBuf (e : State) : (s.withEarlier e).rxBuf = s.rxBuf := rfl
@[simp] theorem State.withEarlier_csAcc (e : State) : (s.withEarlier e).csAcc = s.csAcc := rfl
@[simp] theorem State.withEarlier_port (e : State) : (s.withEarlier e).port = s.port := rfl
@[simp] theorem State.withEarlier_out (e : State) : (s.withEarlier e).out = e.out ++ s.out := rfl
@[simp] theorem State.withEarlier_hostSent (e : State) : (s.withEarlier e).hostSent = e.hostSent ++ s.hostSent := rfl

/-! Where an error leaves the parser. -/

@[simp] theorem State.resync_stay_rxState : (s.resync .stay).rxState = s.rxState := rfl
@[simp] theorem State.resync_stay_rxId : (s.resync .stay).rxId = s.rxId := rfl
@[simp] theorem State.resync_stay_rxLen : (s.resync .stay).rxLen = s.rxLen := rfl
@[simp] theorem State.resync_stay_rxCnt : (s.resync .stay).rxCnt = s.rxCnt := rfl
@[simp] theorem State.resync_stay_rxBuf : (s.resync .stay).rxBuf = s.rxBuf := rfl
@[simp] theorem State.resync_stay_csAcc : (s.resync .stay).csAcc = s.csAcc := rfl
@[simp] theorem State.resync_stay_port : (s.resync .stay).port = s.port := rfl
@[simp] theorem State.resync_stay_out : (s.resync .stay).out = s.out := rfl
@[simp] theorem State.resync_stay_hostSent : (s.resync .stay).hostSent = s.hostSent := rfl

@[simp] theorem State.resync_hunt_rxState : (s.resync .hunt).rxState = .hunt := rfl
@[simp] theorem State.resync_hunt_rxId : (s.resync .hunt).rxId = s.rxId := rfl
@[simp] theorem State.resync_hunt_rxLen : (s.resync .hunt).rxLen = s.rxLen := rfl
@[simp] theorem State.resync_hunt_rxCnt : (s.resync .hunt).rxCnt = 0 := rfl
@[simp] theorem State.resync_hunt_rxBuf : (s.resync .hunt).rxBuf = s.rxBuf := rfl
@[simp] theorem State.resync_hunt_csAcc : (s.resync .hunt).csAcc = s.csAcc := rfl
@[simp] theorem State.resync_hunt_port : (s.resync .hunt).port = s.port := rfl
@[simp] theorem State.resync_hunt_out : (s.resync .hunt).out = s.out := rfl
@[simp] theorem State.resync_hunt_hostSent : (s.resync .hunt).hostSent = s.hostSent := rfl

@[simp] theorem State.resync_restart_rxState (d : Byte) : (s.resync (.restart d)).rxState = .lenHi := rfl
@[simp] theorem State.resync_restart_rxId (d : Byte) : (s.resync (.restart d)).rxId = low7 d := rfl
@[simp] theorem State.resync_restart_rxLen (d : Byte) : (s.resync (.restart d)).rxLen = s.rxLen := rfl
@[simp] theorem State.resync_restart_rxCnt (d : Byte) : (s.resync (.restart d)).rxCnt = 1 := rfl
@[simp] theorem State.resync_restart_rxBuf (d : Byte) : (s.resync (.restart d)).rxBuf = s.rxBuf := rfl
@[simp] theorem State.resync_restart_csAcc (d : Byte) : (s.resync (.restart d)).csAcc = s.csAcc := rfl
@[simp] theorem State.resync_restart_port (d : Byte) : (s.resync (.restart d)).port = s.port := rfl
@[simp] theorem State.resync_restart_out (d : Byte) : (s.resync (.restart d)).out = s.out := rfl
@[simp] theorem State.resync_restart_hostSent (d : Byte) : (s.resync (.restart d)).hostSent = s.hostSent := rfl

/-! Taking an error: whatever it is, it is the output, and it never touches what is not the parser's. -/

@[simp] theorem State.raise_rxState (e : Output) (r : Resync) : (s.raise e r).rxState = (s.resync r).rxState := rfl
@[simp] theorem State.raise_rxId (e : Output) (r : Resync) : (s.raise e r).rxId = (s.resync r).rxId := rfl
@[simp] theorem State.raise_rxLen (e : Output) (r : Resync) : (s.raise e r).rxLen = s.rxLen := by cases r <;> rfl
@[simp] theorem State.raise_rxCnt (e : Output) (r : Resync) : (s.raise e r).rxCnt = (s.resync r).rxCnt := rfl
@[simp] theorem State.raise_rxBuf (e : Output) (r : Resync) : (s.raise e r).rxBuf = s.rxBuf := by cases r <;> rfl
@[simp] theorem State.raise_csAcc (e : Output) (r : Resync) : (s.raise e r).csAcc = s.csAcc := by cases r <;> rfl
@[simp] theorem State.raise_port (e : Output) (r : Resync) : (s.raise e r).port = s.port := by cases r <;> rfl
@[simp] theorem State.raise_out (e : Output) (r : Resync) : (s.raise e r).out = [e] := rfl
@[simp] theorem State.raise_hostSent (e : Output) (r : Resync) : (s.raise e r).hostSent = [] := rfl

end Sys2Proof.Machine
end

