-- ==== Sys2Proof/Laws/Ops.lean ====
section
/-! SUPPORT. What each shared operation can do, said once: sequencing, a whole sequence of operations, a byte of the receive
stream, a run of bytes, and the operand forms of the length and of the header byte. -/

namespace Sys2Proof.Machine

/-! ### Sequencing -/

/-- All that two outcomes one after the other can answer as a next state. -/
theorem andThen_eq_next_iff (r : Result) (f : State → Result) (u : State) :
    andThen r f = .next u ↔
      ∃ s t, r = .next s ∧ f s = .next t ∧ u = t.withEarlier s := by
  cases r with
  | next s => cases hf : f s <;> simp [andThen, hf, eq_comm]
  | fault e => simp [andThen]
  | refused e => simp [andThen]

@[simp] theorem andThen_next (s : State) (f : State → Result) {t : State} (h : f s = .next t) :
    andThen (.next s) f = .next (t.withEarlier s) :=
  (andThen_eq_next_iff _ _ _).2 ⟨s, t, rfl, h, rfl⟩

@[simp] theorem rxBytes_nil (s : State) : rxBytes [] s = .next s.hold := rfl

theorem rxBytes_cons (d : Byte) (ds : List Byte) (s : State) :
    rxBytes (d :: ds) s = andThen (rxByte d s) (rxBytes ds) := rfl

@[simp] theorem execList_nil (s : State) : execList [] s = .next s.hold := rfl

theorem execList_cons (i : Instr) (is : List Instr) (s : State) :
    execList (i :: is) s = andThen (exec i s) (execList is) := rfl

/-- `RXS` through the operations of the port is the bytes one after the other. -/
theorem execList_rxs (ds : List Byte) (s : State) : execList (rxs ds) s = rxBytes ds s := by
  induction ds generalizing s with
  | nil => rfl
  | cons d ds ih =>
    show andThen (rxByte d s) (execList (rxs ds)) = andThen (rxByte d s) (rxBytes ds)
    congr 1
    funext t
    exact ih t

/-! ### Bytes that are no row of the table -/

@[simp] theorem performBytes_op (bs : List Byte) (s : State) : performBytes ⟨.op, bs⟩ s = .next s.hold := rfl
@[simp] theorem performBytes_msg (bs : List Byte) (s : State) : performBytes ⟨.msg, bs⟩ s = rxBytes bs s := rfl
@[simp] theorem performBytes_cmd (bs : List Byte) (s : State) : performBytes ⟨.cmd, bs⟩ s = .next (s.passBy bs) := rfl
@[simp] theorem performBytes_clksub (bs : List Byte) (s : State) :
    performBytes ⟨.clksub, bs⟩ s = .next (s.passBy bs) := rfl

/-- Everything a presentation that is no row of the table can do. -/
theorem performBytes_cases (p : Presented) (s t : State) (h : performBytes p s = .next t) :
    t = s.hold ∨ t = s.passBy p.bytes ∨ rxBytes p.bytes s = .next t := by
  obtain ⟨f, bs⟩ := p
  cases f <;> simp at h <;> simp [h]

/-! ### One byte of the receive stream -/

/-- Everything one byte of the receive stream can do when it gives a next state: the rules R67 to R74, one case each. -/
theorem rxByte_cases (d : Byte) (s t : State) (h : rxByte d s = .next t) :
    ((s.rxState = .idle ∨ s.rxState = .hunt) ∧ highBit d = true ∧ t = (s.startFrame d).answer .nothing) ∨
    (s.rxState = .idle ∧ highBit d = false ∧ t = s.raise (.frameInvalid .notStart 1) .hunt) ∨
    (s.rxState = .hunt ∧ highBit d = false ∧ t = s.answer .skipped) ∨
    (s.rxState = .lenHi ∧ highBit d = false ∧
      t = { s with rxLen := lenHigh d, rxCnt := 2, rxState := .lenLo }.answer .nothing) ∨
    (s.rxState = .lenHi ∧ highBit d = true ∧ t = s.raise (.frameInvalid .lenNotClean 1) (.restart d)) ∨
    (s.rxState = .lenLo ∧ highBit d = true ∧ t = s.raise (.frameInvalid .lenNotClean 2) (.restart d)) ∨
    (s.rxState = .lenLo ∧ highBit d = false ∧ (s.rxLen ||| lenLow d).toNat < 3 ∧
      t = s.raise (.frameInvalid .lenRange 3) .hunt) ∨
    (s.rxState = .lenLo ∧ highBit d = false ∧ (s.rxLen ||| lenLow d).toNat = 3 ∧
      t = { s with rxLen := s.rxLen ||| lenLow d }.complete s.rxId (s.rxLen ||| lenLow d) []) ∨
    (s.rxState = .lenLo ∧ highBit d = false ∧ 3 < (s.rxLen ||| lenLow d).toNat ∧
      t = { s with rxLen := s.rxLen ||| lenLow d, rxCnt := 3, rxState := .payload }.answer .nothing) ∨
    (s.rxState = .payload ∧ (cellIndex s.rxCnt).toNat < Config.rxBufSize ∧ s.rxCnt + 1 = s.rxLen ∧
      ∃ p, readCells (s.rxBuf.write (cellIndex s.rxCnt).toNat d) 0 (s.rxLen.toNat - 3) = .ok p ∧
        t = { s with rxBuf := s.rxBuf.write (cellIndex s.rxCnt).toNat d }.complete s.rxId s.rxLen p) ∨
    (s.rxState = .payload ∧ (cellIndex s.rxCnt).toNat < Config.rxBufSize ∧ s.rxCnt + 1 ≠ s.rxLen ∧
      t = { s with rxBuf := s.rxBuf.write (cellIndex s.rxCnt).toNat d, rxCnt := s.rxCnt + 1 }.answer .nothing) := by
  unfold rxByte at h
  cases hs : s.rxState with
  | idle =>
    simp only [hs] at h
    cases hd : highBit d <;> simp_all
  | hunt =>
    simp only [hs] at h
    cases hd : highBit d <;> simp_all
  | lenHi =>
    simp only [hs, rxLenHi] at h
    cases hd : highBit d <;> simp_all
  | lenLo =>
    simp only [hs, rxLenLo] at h
    cases hd : highBit d with
    | true => simp_all
    | false =>
      simp only [hd, Bool.false_eq_true, if_false] at h
      split_ifs at h with h1 h2
      · simp_all
      · simp_all
      · have : 3 < (s.rxLen ||| lenLow d).toNat := by
          simp only [Config.minLen, Config.hdr] at h1 h2; omega
        simp_all
  | payload =>
    simp only [hs, rxPayload] at h
    cases hw : memWrite s.rxBuf (cellIndex s.rxCnt).toNat d with
    | error f => simp [hw] at h
    | ok m =>
      obtain ⟨ha, rfl⟩ := (memWrite_eq_ok_iff _ _ _ _).1 hw
      simp only [hw] at h
      split_ifs at h with hc
      · cases hr : readCells (s.rxBuf.write (cellIndex s.rxCnt).toNat d) 0 (s.rxLen.toNat - Config.hdr) with
        | error f => simp [hr] at h
        | ok p =>
          simp only [hr, Host.Outcome.next.injEq] at h
          refine .inr (.inr (.inr (.inr (.inr (.inr (.inr (.inr (.inr (.inl ⟨rfl, ha, hc, p, rfl, h.symm⟩)))))))))
      · simp only [Host.Outcome.next.injEq] at h
        refine .inr (.inr (.inr (.inr (.inr (.inr (.inr (.inr (.inr (.inr ⟨rfl, ha, hc, h.symm⟩)))))))))

/-! ### Operand forms -/

theorem highBit_headerByte (id : MsgId) : highBit (headerByte id) = true := by
  revert id; decide

theorem low7_headerByte (id : MsgId) : low7 (headerByte id) = id := by
  revert id; decide

/-- The two halves of a length, as numbers (R86, R87). -/
theorem llhSeven_toNat (L : Nat) : (llhSeven L).toNat = L / 128 % 128 := by
  have h : (L >>> 7) &&& 0x7F = L / 128 % 128 := by
    rw [Nat.shiftRight_eq_div_pow, show (0x7F : Nat) = 2 ^ 7 - 1 from rfl, Nat.and_two_pow_sub_one_eq_mod]
  rw [llhSeven, BitVec.toNat_ofNat, h]
  omega

theorem lllSeven_toNat (L : Nat) : (lllSeven L).toNat = L % 128 := by
  have h : L &&& 0x7F = L % 128 := by
    rw [show (0x7F : Nat) = 2 ^ 7 - 1 from rfl, Nat.and_two_pow_sub_one_eq_mod]
  rw [lllSeven, BitVec.toNat_ofNat, h]
  omega

theorem highBit_eq_decide (d : Byte) : highBit d = decide (128 ≤ d.toNat) := by
  revert d; decide

/-- Two clean length bytes assemble to `128 * w1 + w2` (R51). -/
theorem assemble_toNat (w1 w2 : Byte) (h1 : highBit w1 = false) (h2 : highBit w2 = false) :
    (lenHigh w1 ||| lenLow w2).toNat = 128 * w1.toNat + w2.toNat := by
  rw [highBit_eq_decide, decide_eq_false_iff_not, Nat.not_le] at h1 h2
  have e1 : (lenHigh w1).toNat = w1.toNat <<< 7 := by
    simp only [lenHigh, low7, BitVec.toNat_shiftLeft, BitVec.toNat_setWidth]
    rw [Nat.shiftLeft_eq]
    omega
  have e2 : (lenLow w2).toNat = w2.toNat := by
    simp only [lenLow, low7, BitVec.toNat_setWidth]
    omega
  rw [BitVec.toNat_or, e1, e2, ← Nat.shiftLeft_add_eq_or_of_lt h2, Nat.shiftLeft_eq]
  omega

/-- Taking exactly the bytes that stand in front. -/
theorem takeExactly_append (l rest : List Byte) : takeExactly l.length (l ++ rest) = some (l, rest) := by
  induction l with
  | nil => rfl
  | cons b l ih => simp [takeExactly, ih]

/-- All that `takeExactly` can answer. -/
theorem takeExactly_eq_some_iff (n : Nat) (l p rest : List Byte) :
    takeExactly n l = some (p, rest) ↔ p.length = n ∧ l = p ++ rest := by
  constructor
  · intro h
    induction n generalizing l p with
    | zero =>
      simp only [takeExactly, Option.some.injEq, Prod.mk.injEq] at h
      simp [← h.1, h.2]
    | succ n ih =>
      cases l with
      | nil => simp [takeExactly] at h
      | cons b l =>
        simp only [takeExactly, Option.map_eq_some_iff, Prod.mk.injEq] at h
        obtain ⟨⟨q, r⟩, hq, rfl, rfl⟩ := h
        obtain ⟨h1, h2⟩ := ih l q hq
        simp [h1, h2]
  · rintro ⟨rfl, rfl⟩
    exact takeExactly_append p rest

end Sys2Proof.Machine
end

