-- ==== Sys2Proof/Laws/PerInstr.lean ====
section
/-! SUPPORT. Per-instruction facts about the syntax: every instruction's encoding begins with the word that its row of
spec/opcode_table.json fixes, in its row's code space. -/

namespace Sys2Proof.Laws

open Sys2Proof

/-- The row of spec/opcode_table.json: format, mask, match. -/
def tableRow : Instr → Format × Nat × Nat
  | .rst => (.op, 0xF, 0x0)
  | .rxb _ => (.op, 0xF, 0x1)
  | .txf _ _ => (.op, 0xF, 0x2)
  | .csclr => (.op, 0xF, 0x3)
  | .csadd _ => (.op, 0xF, 0x4)
  | .cschk _ => (.op, 0xF, 0x5)
  | .disp _ _ _ => (.op, 0xF, 0x6)
  | .bwcls _ => (.op, 0xF, 0x7)
  | .acku _ => (.op, 0xF, 0x8)
  | .reserved9 => (.op, 0xF, 0x9)
  | .reserved10 => (.op, 0xF, 0xA)
  | .reserved11 => (.op, 0xF, 0xB)
  | .reserved12 => (.op, 0xF, 0xC)
  | .reserved13 => (.op, 0xF, 0xD)
  | .reserved14 => (.op, 0xF, 0xE)
  | .reserved15 => (.op, 0xF, 0xF)
  | .msgBoardDump _ _ => (.msg, 0xFF, 0x86)
  | .msgBwtime _ _ => (.msg, 0xFF, 0x8D)
  | .msgFieldUpdate _ _ => (.msg, 0xFF, 0x8E)
  | .msgEeMoves _ _ => (.msg, 0xFF, 0x8F)
  | .msgBusAddress _ _ => (.msg, 0xFF, 0x90)
  | .msgSerialNumber _ _ => (.msg, 0xFF, 0x91)
  | .msgTrademark _ _ => (.msg, 0xFF, 0x92)
  | .msgVersion _ _ => (.msg, 0xFF, 0x93)
  | .msgBoardDump50Black _ _ => (.msg, 0xFF, 0x94)
  | .msgBoardDump50White _ _ => (.msg, 0xFF, 0x95)
  | .msgBatteryStatus _ _ => (.msg, 0xFF, 0xA0)
  | .msgLongSerial _ _ => (.msg, 0xFF, 0xA2)
  | .cmdReset => (.cmd, 0xFF, 0x40)
  | .cmdSendClock => (.cmd, 0xFF, 0x41)
  | .cmdSendBoard => (.cmd, 0xFF, 0x42)
  | .cmdSendUpdate => (.cmd, 0xFF, 0x43)
  | .cmdSendUpdateBoard => (.cmd, 0xFF, 0x44)
  | .cmdSerialNumber => (.cmd, 0xFF, 0x45)
  | .cmdBusAddress => (.cmd, 0xFF, 0x46)
  | .cmdTrademark => (.cmd, 0xFF, 0x47)
  | .cmdEeMoves => (.cmd, 0xFF, 0x49)
  | .cmdUpdateNice => (.cmd, 0xFF, 0x4B)
  | .cmdBatteryStatus => (.cmd, 0xFF, 0x4C)
  | .cmdVersion => (.cmd, 0xFF, 0x4D)
  | .cmdBoardDumpBlack => (.cmd, 0xFF, 0x50)
  | .cmdScanBlack => (.cmd, 0xFF, 0x51)
  | .cmdBoardDumpWhite => (.cmd, 0xFF, 0x52)
  | .cmdScanWhite => (.cmd, 0xFF, 0x53)
  | .cmdScanAll => (.cmd, 0xFF, 0x54)
  | .cmdLongSerial => (.cmd, 0xFF, 0x55)
  | .cmdSetLeds => (.cmd, 0xFF, 0x60)
  | .cmdToBusmode => (.cmd, 0xFF, 0x4A)
  | .cmdStartBootloader => (.cmd, 0xFF, 0x4E)
  | .cmdClockMessage => (.cmd, 0xFF, 0x2B)
  | .clkDisplay => (.clksub, 0xFF, 0x01)
  | .clkIcons => (.clksub, 0xFF, 0x02)
  | .clkEnd => (.clksub, 0xFF, 0x03)
  | .clkButton => (.clksub, 0xFF, 0x08)
  | .clkVersion => (.clksub, 0xFF, 0x09)
  | .clkSetAndRun => (.clksub, 0xFF, 0x0A)
  | .clkBeep => (.clksub, 0xFF, 0x0B)
  | .clkAscii => (.clksub, 0xFF, 0x0C)

/-- The encoding of `i` is in the row's code space and its first byte, masked, is the row's match. -/
def TableWord.Statement (i : Instr) : Prop :=
  (encode i).format = (tableRow i).1 ∧
    ∃ b rest, (encode i).bytes = b :: rest ∧ b.toNat &&& (tableRow i).2.1 = (tableRow i).2.2

theorem TableWord.rst : TableWord.Statement (.rst) :=
  ⟨rfl, _, _, rfl, by simp [tableRow]⟩

theorem TableWord.rxb (d : Byte) : TableWord.Statement (.rxb d) :=
  ⟨rfl, _, _, rfl, by simp [tableRow]⟩

theorem TableWord.txf (id : MsgId) (payload : List Byte) : TableWord.Statement (.txf id payload) :=
  ⟨rfl, _, _, rfl, by simp [tableRow]⟩

theorem TableWord.csclr : TableWord.Statement (.csclr) :=
  ⟨rfl, _, _, rfl, by simp [tableRow]⟩

theorem TableWord.csadd (d : Byte) : TableWord.Statement (.csadd d) :=
  ⟨rfl, _, _, rfl, by simp [tableRow]⟩

theorem TableWord.cschk (d : Byte) : TableWord.Statement (.cschk d) :=
  ⟨rfl, _, _, rfl, by simp [tableRow]⟩

theorem TableWord.disp (id : MsgId) (length : Len) (payload : List Byte) : TableWord.Statement (.disp id length payload) :=
  ⟨rfl, _, _, rfl, by simp [tableRow]⟩

theorem TableWord.bwcls (p : BwPayload) : TableWord.Statement (.bwcls p) :=
  ⟨rfl, _, _, rfl, by simp [tableRow]⟩

theorem TableWord.acku (p : BwPayload) : TableWord.Statement (.acku p) :=
  ⟨rfl, _, _, rfl, by simp [tableRow]⟩

theorem TableWord.reserved9 : TableWord.Statement (.reserved9) :=
  ⟨rfl, _, _, rfl, by simp [tableRow]⟩

theorem TableWord.reserved10 : TableWord.Statement (.reserved10) :=
  ⟨rfl, _, _, rfl, by simp [tableRow]⟩

theorem TableWord.reserved11 : TableWord.Statement (.reserved11) :=
  ⟨rfl, _, _, rfl, by simp [tableRow]⟩

theorem TableWord.reserved12 : TableWord.Statement (.reserved12) :=
  ⟨rfl, _, _, rfl, by simp [tableRow]⟩

theorem TableWord.reserved13 : TableWord.Statement (.reserved13) :=
  ⟨rfl, _, _, rfl, by simp [tableRow]⟩

theorem TableWord.reserved14 : TableWord.Statement (.reserved14) :=
  ⟨rfl, _, _, rfl, by simp [tableRow]⟩

theorem TableWord.reserved15 : TableWord.Statement (.reserved15) :=
  ⟨rfl, _, _, rfl, by simp [tableRow]⟩

theorem TableWord.msgBoardDump (length : Len) (payload : List Byte) : TableWord.Statement (.msgBoardDump length payload) :=
  ⟨rfl, _, _, rfl, by simp [tableRow]⟩

theorem TableWord.msgBwtime (length : Len) (payload : List Byte) : TableWord.Statement (.msgBwtime length payload) :=
  ⟨rfl, _, _, rfl, by simp [tableRow]⟩

theorem TableWord.msgFieldUpdate (length : Len) (payload : List Byte) : TableWord.Statement (.msgFieldUpdate length payload) :=
  ⟨rfl, _, _, rfl, by simp [tableRow]⟩

theorem TableWord.msgEeMoves (length : Len) (payload : List Byte) : TableWord.Statement (.msgEeMoves length payload) :=
  ⟨rfl, _, _, rfl, by simp [tableRow]⟩

theorem TableWord.msgBusAddress (length : Len) (payload : List Byte) : TableWord.Statement (.msgBusAddress length payload) :=
  ⟨rfl, _, _, rfl, by simp [tableRow]⟩

theorem TableWord.msgSerialNumber (length : Len) (payload : List Byte) : TableWord.Statement (.msgSerialNumber length payload) :=
  ⟨rfl, _, _, rfl, by simp [tableRow]⟩

theorem TableWord.msgTrademark (length : Len) (payload : List Byte) : TableWord.Statement (.msgTrademark length payload) :=
  ⟨rfl, _, _, rfl, by simp [tableRow]⟩

theorem TableWord.msgVersion (length : Len) (payload : List Byte) : TableWord.Statement (.msgVersion length payload) :=
  ⟨rfl, _, _, rfl, by simp [tableRow]⟩

theorem TableWord.msgBoardDump50Black (length : Len) (payload : List Byte) : TableWord.Statement (.msgBoardDump50Black length payload) :=
  ⟨rfl, _, _, rfl, by simp [tableRow]⟩

theorem TableWord.msgBoardDump50White (length : Len) (payload : List Byte) : TableWord.Statement (.msgBoardDump50White length payload) :=
  ⟨rfl, _, _, rfl, by simp [tableRow]⟩

theorem TableWord.msgBatteryStatus (length : Len) (payload : List Byte) : TableWord.Statement (.msgBatteryStatus length payload) :=
  ⟨rfl, _, _, rfl, by simp [tableRow]⟩

theorem TableWord.msgLongSerial (length : Len) (payload : List Byte) : TableWord.Statement (.msgLongSerial length payload) :=
  ⟨rfl, _, _, rfl, by simp [tableRow]⟩

theorem TableWord.cmdReset : TableWord.Statement (.cmdReset) :=
  ⟨rfl, _, _, rfl, by simp [tableRow]⟩

theorem TableWord.cmdSendClock : TableWord.Statement (.cmdSendClock) :=
  ⟨rfl, _, _, rfl, by simp [tableRow]⟩

theorem TableWord.cmdSendBoard : TableWord.Statement (.cmdSendBoard) :=
  ⟨rfl, _, _, rfl, by simp [tableRow]⟩

theorem TableWord.cmdSendUpdate : TableWord.Statement (.cmdSendUpdate) :=
  ⟨rfl, _, _, rfl, by simp [tableRow]⟩

theorem TableWord.cmdSendUpdateBoard : TableWord.Statement (.cmdSendUpdateBoard) :=
  ⟨rfl, _, _, rfl, by simp [tableRow]⟩

theorem TableWord.cmdSerialNumber : TableWord.Statement (.cmdSerialNumber) :=
  ⟨rfl, _, _, rfl, by simp [tableRow]⟩

theorem TableWord.cmdBusAddress : TableWord.Statement (.cmdBusAddress) :=
  ⟨rfl, _, _, rfl, by simp [tableRow]⟩

theorem TableWord.cmdTrademark : TableWord.Statement (.cmdTrademark) :=
  ⟨rfl, _, _, rfl, by simp [tableRow]⟩

theorem TableWord.cmdEeMoves : TableWord.Statement (.cmdEeMoves) :=
  ⟨rfl, _, _, rfl, by simp [tableRow]⟩

theorem TableWord.cmdUpdateNice : TableWord.Statement (.cmdUpdateNice) :=
  ⟨rfl, _, _, rfl, by simp [tableRow]⟩

theorem TableWord.cmdBatteryStatus : TableWord.Statement (.cmdBatteryStatus) :=
  ⟨rfl, _, _, rfl, by simp [tableRow]⟩

theorem TableWord.cmdVersion : TableWord.Statement (.cmdVersion) :=
  ⟨rfl, _, _, rfl, by simp [tableRow]⟩

theorem TableWord.cmdBoardDumpBlack : TableWord.Statement (.cmdBoardDumpBlack) :=
  ⟨rfl, _, _, rfl, by simp [tableRow]⟩

theorem TableWord.cmdScanBlack : TableWord.Statement (.cmdScanBlack) :=
  ⟨rfl, _, _, rfl, by simp [tableRow]⟩

theorem TableWord.cmdBoardDumpWhite : TableWord.Statement (.cmdBoardDumpWhite) :=
  ⟨rfl, _, _, rfl, by simp [tableRow]⟩

theorem TableWord.cmdScanWhite : TableWord.Statement (.cmdScanWhite) :=
  ⟨rfl, _, _, rfl, by simp [tableRow]⟩

theorem TableWord.cmdScanAll : TableWord.Statement (.cmdScanAll) :=
  ⟨rfl, _, _, rfl, by simp [tableRow]⟩

theorem TableWord.cmdLongSerial : TableWord.Statement (.cmdLongSerial) :=
  ⟨rfl, _, _, rfl, by simp [tableRow]⟩

theorem TableWord.cmdSetLeds : TableWord.Statement (.cmdSetLeds) :=
  ⟨rfl, _, _, rfl, by simp [tableRow]⟩

theorem TableWord.cmdToBusmode : TableWord.Statement (.cmdToBusmode) :=
  ⟨rfl, _, _, rfl, by simp [tableRow]⟩

theorem TableWord.cmdStartBootloader : TableWord.Statement (.cmdStartBootloader) :=
  ⟨rfl, _, _, rfl, by simp [tableRow]⟩

theorem TableWord.cmdClockMessage : TableWord.Statement (.cmdClockMessage) :=
  ⟨rfl, _, _, rfl, by simp [tableRow]⟩

theorem TableWord.clkDisplay : TableWord.Statement (.clkDisplay) :=
  ⟨rfl, _, _, rfl, by simp [tableRow]⟩

theorem TableWord.clkIcons : TableWord.Statement (.clkIcons) :=
  ⟨rfl, _, _, rfl, by simp [tableRow]⟩

theorem TableWord.clkEnd : TableWord.Statement (.clkEnd) :=
  ⟨rfl, _, _, rfl, by simp [tableRow]⟩

theorem TableWord.clkButton : TableWord.Statement (.clkButton) :=
  ⟨rfl, _, _, rfl, by simp [tableRow]⟩

theorem TableWord.clkVersion : TableWord.Statement (.clkVersion) :=
  ⟨rfl, _, _, rfl, by simp [tableRow]⟩

theorem TableWord.clkSetAndRun : TableWord.Statement (.clkSetAndRun) :=
  ⟨rfl, _, _, rfl, by simp [tableRow]⟩

theorem TableWord.clkBeep : TableWord.Statement (.clkBeep) :=
  ⟨rfl, _, _, rfl, by simp [tableRow]⟩

theorem TableWord.clkAscii : TableWord.Statement (.clkAscii) :=
  ⟨rfl, _, _, rfl, by simp [tableRow]⟩

end Sys2Proof.Laws
end

