-- ==== Sys2Proof/Tests/Slice0.lean ====
section
/-! SUPPORT. Tests. Expected values are written out from spec/95_test_vectors.md and spec/30_encoding.md, never from the model.
The last part shows, for each obligation with hypotheses, concrete values that meet them, at the boundaries of each clause. -/

namespace Sys2Proof.Tests

open Sys2Proof Sys2Proof.Machine

/-! ### Helpers -/

/-- The outputs of an outcome. -/
def outs : Result → Option (List Output)
  | .next t => some t.out
  | .fault _ => none
  | .refused _ => none

/-- `(rx_state, rx_id, rx_len, rx_cnt | cs_acc)` of an outcome, the notation of spec/95_test_vectors.md. -/
def regs : Result → Option (RxState × MsgId × Len × Len × Sum7)
  | .next t => some (t.rxState, t.rxId, t.rxLen, t.rxCnt, t.csAcc)
  | .fault _ => none
  | .refused _ => none

/-- A cell of `rx_buf` after an outcome. -/
def cell (a : Nat) : Result → Option Byte
  | .next t => t.rxBuf.read a
  | .fault _ => none
  | .refused _ => none

/-- What an outcome records as put on the transport by the host itself. -/
def sent : Result → Option (List Byte)
  | .next t => some t.hostSent
  | .fault _ => none
  | .refused _ => none

/-- A state with these registers, nothing presented and nothing answered. -/
def st (x : RxState) (id : MsgId) (len cnt : Len) (buf : Memory) (acc : Sum7) : State :=
  { State.reset with rxState := x, rxId := id, rxLen := len, rxCnt := cnt, rxBuf := buf, csAcc := acc }

/-- The instruction a presentation decodes to, if it is one and nothing is left over. -/
def reads (f : Format) (bs : List Byte) : Option Instr :=
  match decode ⟨f, bs⟩ with
  | .ok (i, []) => some i
  | .ok (_, _ :: _) => none
  | .error _ => none

/-- Why a presentation is no instruction. -/
def why (f : Format) (bs : List Byte) : Option DecodeError :=
  match decode ⟨f, bs⟩ with
  | .ok _ => none
  | .error e => some e

/-- A state in the middle of a frame's header. -/
def midFrame : State := st .lenLo 0x0e 0 2 [] 0x33

/-! ### WellFormed: an ill-formed term for each check -/

theorem test_wf_txf_count : (Instr.txf 0x0f (List.replicate 16384 0)).wf = false := by
  simp only [Instr.wf, countFits, List.length_replicate]; decide

theorem test_wf_txf_count_greatest : (Instr.txf 0x0f (List.replicate 16383 0)).wf = true := by
  simp only [Instr.wf, countFits, List.length_replicate]; decide

theorem test_wf_disp_payload : (Instr.disp 0x0e 5 [4]).wf = false ∧ (Instr.disp 0x0e 5 [4, 1]).wf = true ∧
    (Instr.disp 0x0e 2 [4]).wf = false ∧ (Instr.disp 0x0e 2 []).wf = true := by decide

theorem test_wf_msg_payload :
    ([Instr.msgBoardDump, .msgBwtime, .msgFieldUpdate, .msgEeMoves, .msgBusAddress, .msgSerialNumber, .msgTrademark,
      .msgVersion, .msgBoardDump50Black, .msgBoardDump50White, .msgBatteryStatus, .msgLongSerial].all fun mk =>
        !(mk 5 [4]).wf && !(mk 2 [4]).wf && (mk 5 [4, 1]).wf && (mk 3 []).wf) = true := by decide

/-! ### Decoding: a word for every constructor -/

/-- spec/95_test_vectors.md Part 3 and spec/30_encoding.md R46. -/
theorem test_decode_op :
    reads .op [0x00] = some .rst ∧
    reads .op [0x01, 0x8e] = some (.rxb 0x8e) ∧
    reads .op [0x02, 0x0e, 0x00, 0x02, 0x04, 0x01] = some (.txf 0x0e [0x04, 0x01]) ∧
    reads .op [0x03] = some .csclr ∧
    reads .op [0x04, 0x8a] = some (.csadd 0x8a) ∧
    reads .op [0x05, 0x50] = some (.cschk 0x50) ∧
    reads .op [0x06, 0x0e, 0x00, 0x05, 0x04, 0x01] = some (.disp 0x0e 5 [0x04, 0x01]) ∧
    reads .op [0x06, 0x0e, 0x00, 0x02] = some (.disp 0x0e 2 []) ∧
    reads .op [0x07, 0x0a, 0x10, 0x01, 0x2a, 0x00, 0x31, 0x55] = some (.bwcls ⟨0x0a, 0x10, 0x01, 0x2a, 0x00, 0x31, 0x55⟩) ∧
    reads .op [0x08, 0x0a, 0x10, 0x01, 0x2a, 0x00, 0x31, 0x55] = some (.acku ⟨0x0a, 0x10, 0x01, 0x2a, 0x00, 0x31, 0x55⟩) := by
  decide

/-- R60. -/
theorem test_decode_reserved :
    [0x09, 0x0a, 0x0b, 0x0c, 0x0d, 0x0e, 0x0f].map (fun b => reads .op [b]) =
      [some .reserved9, some .reserved10, some .reserved11, some .reserved12, some .reserved13, some .reserved14,
       some .reserved15] := by decide

/-- R57, the header bytes of the twelve ids, and R47, `L = 5` as `0x00 0x05`. -/
theorem test_decode_msg :
    [0x86, 0x8d, 0x8e, 0x8f, 0x90, 0x91, 0x92, 0x93, 0x94, 0x95, 0xa0, 0xa2].map
        (fun b => reads .msg [b, 0x00, 0x05, 0x04, 0x01]) =
      [Instr.msgBoardDump, .msgBwtime, .msgFieldUpdate, .msgEeMoves, .msgBusAddress, .msgSerialNumber, .msgTrademark,
       .msgVersion, .msgBoardDump50Black, .msgBoardDump50White, .msgBatteryStatus, .msgLongSerial].map
        (fun mk => some (mk 5 [0x04, 0x01])) := by decide

/-- V41-1: 133 is `0x01 0x05`. -/
theorem test_decode_msg_long :
    reads .msg ([0x8f, 0x01, 0x05] ++ List.replicate 130 0x41) = some (.msgEeMoves 133 (List.replicate 130 0x41)) := by
  decide +kernel

/-- R146 to R167, in the rules' order. -/
theorem test_decode_cmd :
    [0x40, 0x41, 0x42, 0x43, 0x44, 0x45, 0x46, 0x47, 0x49, 0x4b, 0x4c].map (fun b => reads .cmd [b]) =
      [some .cmdReset, some .cmdSendClock, some .cmdSendBoard, some .cmdSendUpdate, some .cmdSendUpdateBoard,
       some .cmdSerialNumber, some .cmdBusAddress, some .cmdTrademark, some .cmdEeMoves, some .cmdUpdateNice,
       some .cmdBatteryStatus] ∧
    [0x4d, 0x50, 0x51, 0x52, 0x53, 0x54, 0x55, 0x60, 0x4a, 0x4e, 0x2b].map (fun b => reads .cmd [b]) =
      [some .cmdVersion, some .cmdBoardDumpBlack, some .cmdScanBlack, some .cmdBoardDumpWhite, some .cmdScanWhite,
       some .cmdScanAll, some .cmdLongSerial, some .cmdSetLeds, some .cmdToBusmode, some .cmdStartBootloader,
       some .cmdClockMessage] := by decide

/-- R169 to R176. -/
theorem test_decode_clksub :
    [0x01, 0x02, 0x03, 0x08, 0x09, 0x0a, 0x0b, 0x0c].map (fun b => reads .clksub [b]) =
      [some .clkDisplay, some .clkIcons, some .clkEnd, some .clkButton, some .clkVersion, some .clkSetAndRun,
       some .clkBeep, some .clkAscii] := by decide

/-- Every reason to reject, by name. -/
theorem test_decode_rejects :
    why .op [] = some .empty ∧ why .op [0x10] = some (.selectNotFourBits 0x10) ∧
    why .op [0x01] = some .truncated ∧ why .op [0x02, 0x0e, 0x00, 0x02, 0x04] = some .truncated ∧
    why .op [0x02, 0x8e, 0x00, 0x00] = some (.idNotSevenBits 0x8e) ∧
    why .op [0x06, 0x0e, 0x40, 0x00] = some (.countNotFourteenBits 0x40 0x00) ∧
    why .op [0x07, 1, 2, 3, 4, 5, 6] = some .truncated ∧
    why .msg [0x0e, 0x00, 0x03] = some (.notAHeader 0x0e) ∧ why .msg [0x8e, 0x00] = some .truncated ∧
    why .msg [0xa1, 0x00, 0x03] = some (.unknownMessageId 0xa1) ∧
    why .msg [0x8e, 0x93, 0x00] = some (.lengthNotClean 0x93) ∧ why .msg [0x8e, 0x00, 0x93] = some (.lengthNotClean 0x93) ∧
    why .cmd [0x48] = some (.unassignedCommand 0x48) ∧ why .clksub [0x04] = some (.unassignedSubCommand 0x04) := by decide

/-- Table words (log 2): a select code, a header byte (the zeros after it are a length of 0), a command byte, and words with
operand bits. -/
theorem test_table_word :
    decodeTableWord 8 0x03 = some .csclr ∧ decodeTableWord 8 0x86 = some (.msgBoardDump 0 []) ∧
    decodeTableWord 8 0x2b = some .cmdClockMessage ∧ decodeTableWord 16 0x8a04 = some (.csadd 0x8a) ∧
    decodeTableWord 24 0x030092 = some (.msgTrademark 3 []) := by
  decide +kernel

/-- The word placed by the host's hook is the one the next step runs. -/
theorem test_fetch_word :
    regs (step (State.reset.withFetchWord 16 0x8a04)) = some (.idle, 0, 0, 0, 0x0a) ∧
    sent (step (State.reset.withFetchWord 8 0x42)) = some [0x42] := by
  decide +kernel

/-- Three steps over the port (V42-2, first three operations); with nothing presented the block holds. -/
theorem test_port_run :
    outs (Host.Core.run Sys2Proof.core 3 { State.reset with port := [⟨.op, [0x04, 0x8a]⟩, ⟨.op, [0x04, 0x12]⟩, ⟨.op, [0x04, 0x34]⟩] }) =
      some [.sum 0x50] ∧
    outs (step State.reset) = some [] := by decide

/-! ### The receive unit -/

/-- S7: the field-update scenario. -/
theorem test_rxb_s7 :
    outs (execList (rxs [0x8e, 0x00, 0x05, 0x04, 0x01]) State.reset) =
      some [.nothing, .nothing, .nothing, .nothing, .delivered ⟨0x0e, 5, [0x04, 0x01]⟩ (.message .fieldUpdate [0x04, 0x01])] ∧
    regs (execList (rxs [0x8e, 0x00, 0x05, 0x04, 0x01]) State.reset) = some (.idle, 0x0e, 5, 0, 0) ∧
    cell 1 (execList (rxs [0x8e, 0x00, 0x05, 0x04, 0x01]) State.reset) = some 0x01 := by decide

/-- V40-2 rows b and e. -/
theorem test_rxb_resync :
    outs (execList (rxs [0x05, 0x11, 0x8e, 0x93, 0x00, 0x05, 0x01, 0x02]) State.reset) =
      some [.frameInvalid .notStart 1, .skipped, .nothing, .frameInvalid .lenNotClean 1, .nothing, .nothing, .nothing,
        .delivered ⟨0x13, 5, [0x01, 0x02]⟩ (.message .version [0x01, 0x02])] ∧
    outs (execList (rxs [0x8e, 0x00, 0x02, 0x13, 0x8e, 0x00, 0x93]) State.reset) =
      some [.nothing, .nothing, .frameInvalid .lenRange 3, .skipped, .nothing, .nothing, .frameInvalid .lenNotClean 2] := by
  decide

/-- V40-2 row p: the greatest length. -/
theorem test_rxb_greatest_length :
    regs (execList (rxs [0xff, 0xff, 0xff, 0x7f, 0x7f]) State.reset) = some (.payload, 0x7f, 16383, 3, 0) := by decide

/-- V40-4 and R76's examples. -/
theorem test_buffer_functions :
    tryDecodeFrame [0x8e, 0x00, 0x05, 0x04] = .incomplete ∧
    tryDecodeFrame [0x8e, 0x00, 0x05, 0x04, 0x01, 0x8e] = .complete ⟨0x0e, 5, [0x04, 0x01]⟩ 5 ∧
    tryDecodeFrame [0x05] = .invalid .notStart ∧ tryDecodeFrame [0x8e, 0x93] = .invalid .lenNotClean ∧
    tryDecodeFrame [0x8e, 0x00, 0x02] = .invalid .lenRange ∧ tryDecodeFrame [0x8e, 0x00, 0x03] = .complete ⟨0x0e, 3, []⟩ 3 ∧
    resync [0x8e, 0x93, 0x00] = [0x93, 0x00] ∧ resync [0x8e, 0x00, 0x02, 0x13, 0x8e, 0x00] = [0x8e, 0x00] ∧
    resync [0x05, 0x11] = [] := by decide

/-- P2: `decode_all` on its eight bytes. -/
theorem test_decode_all :
    decodeAll [0x05, 0x11, 0x8e, 0x93, 0x00, 0x05, 0x01, 0x02] =
      ([.invalid .notStart, .invalid .lenNotClean, .delivered ⟨0x13, 5, [0x01, 0x02]⟩ (.message .version [0x01, 0x02])],
       []) := by decide

/-- S7a: the same bytes under the misprinted header are a board dump of the wrong size, one MSG row. V40-2 h, another. -/
theorem test_msg_rows :
    outs (exec (.msgBoardDump 5 [0x04, 0x01]) State.reset) =
      some [.nothing, .nothing, .nothing, .nothing, .delivered ⟨0x06, 5, [0x04, 0x01]⟩ (.lengthMismatch 0x06 67 67 5)] ∧
    outs (exec (.msgTrademark 3 []) State.reset) =
      some [.nothing, .nothing, .delivered ⟨0x12, 3, []⟩ (.message .trademark [])] := by decide

/-- A step on bytes that are no row of the table: V40-2 rows k and d through one presentation each (an unknown id; a bad second
length byte), an unassigned command code (R61), and what is no operation at the port. -/
theorem test_bytes_that_are_no_row :
    outs (step { State.reset with port := [⟨.msg, [0xa1, 0x00, 0x04, 0x00]⟩] }) =
      some [.nothing, .nothing, .nothing, .delivered ⟨0x21, 4, [0x00]⟩ (.unknownMessage 0x21)] ∧
    outs (step { State.reset with port := [⟨.msg, [0x8e, 0x00, 0x93, 0x00, 0x05, 0x01, 0x02]⟩] }) =
      some [.nothing, .nothing, .frameInvalid .lenNotClean 2, .nothing, .nothing, .nothing,
        .delivered ⟨0x13, 5, [0x01, 0x02]⟩ (.message .version [0x01, 0x02])] ∧
    sent (step { State.reset with port := [⟨.cmd, [0x48]⟩] }) = some [0x48] ∧
    regs (step { midFrame with port := [⟨.op, [0x10]⟩] }) = some (.lenLo, 0x0e, 0, 2, 0x33) := by decide

/-! ### The encoder -/

/-- V41-2. -/
theorem test_txf :
    outs (exec (.txf 0x12 [0x44, 0x47, 0x54]) State.reset) = some [.bytes [0x92, 0x00, 0x06, 0x44, 0x47, 0x54]] ∧
    outs (exec (.txf 0x12 [0xff, 0x80]) State.reset) = some [.bytes [0x92, 0x00, 0x05, 0xff, 0x80]] ∧
    outs (exec (.txf 0x7f []) State.reset) = some [.bytes [0xff, 0x00, 0x03]] := by decide

/-- V41-1. -/
theorem test_length_split :
    [3, 10, 67, 127, 128, 129, 133, 255, 256, 16380, 16383].map (fun L => (llhSeven L, lllSeven L)) =
      [(0x00, 0x03), (0x00, 0x0a), (0x00, 0x43), (0x00, 0x7f), (0x01, 0x00), (0x01, 0x01), (0x01, 0x05), (0x01, 0x7f),
       (0x02, 0x00), (0x7f, 0x7c), (0x7f, 0x7f)] := by decide

/-! ### The checksum -/

/-- P4. -/
theorem test_checksum_program :
    outs (execList [.rst, .csclr, .csadd 0x8a, .csadd 0x12, .csadd 0x34, .cschk 0x50, .cschk 0x51, .csclr] State.reset) =
      some [.nothing, .nothing, .sum 0x0a, .sum 0x1c, .sum 0x50, .csOk, .checksumMismatch 0x50 0x51, .nothing] ∧
    busCommand 0x0a 0x0934 = [0x8a, 0x12, 0x34, 0x50] := by decide

/-- V42-2 and V42-3: the compare takes all eight bits; the sum wraps. -/
theorem test_checksum_corners :
    outs (exec (.cschk 0xd0) (st .idle 0 0 0 [] 0x50)) = some [.checksumMismatch 0x50 0xd0] ∧
    outs (exec (.csadd 0xff) (st .idle 0 0 0 [] 0x7f)) = some [.sum 0x7e] ∧
    outs (exec (.csadd 0x80) (st .idle 0 0 0 [] 0x33)) = some [.sum 0x33] ∧
    checksum [0xff, 0xff, 0xff] = 0x7d ∧ checksum [] = 0 := by decide

/-! ### The dispatcher -/

/-- V43-1, accepting. -/
theorem test_disp_accepts :
    dispatch ⟨0x0f, 3, []⟩ = .message .eeMoves [] ∧
    dispatch ⟨0x10, 5, [0x12, 0x34]⟩ = .message .busAddress [0x12, 0x34] ∧
    dispatch ⟨0x0d, 10, [0x01, 0x30, 0x00, 0x01, 0x29, 0x59, 0x09]⟩ = .clockTime ⟨0x01, 0x30, 0x00, 0x01, 0x29, 0x59, 0x09⟩ ∧
    dispatch ⟨0x0d, 10, [0x0a, 0x10, 0x01, 0x2a, 0x00, 0x00, 0x00]⟩ =
      .clockAck ⟨0x10, 0x81, 0x00, 0x00, .normal, true, 0x01, .ready⟩ ∧
    dispatch ⟨0x20, 7, [1, 2, 3, 4]⟩ = .message .batteryStatus [1, 2, 3, 4] ∧
    dispatch ⟨0x22, 13, List.replicate 10 0x30⟩ = .message .longSerial (List.replicate 10 0x30) := by decide

/-- V43-1, rejecting; V43-2; V43-3. -/
theorem test_disp_rejects :
    dispatch ⟨0x0d, 9, [0x0a, 0x10, 0x01, 0x2a, 0x00, 0x00]⟩ = .lengthMismatch 0x0d 10 10 9 ∧
    dispatch ⟨0x0e, 6, [0x04, 0x01, 0x00]⟩ = .lengthMismatch 0x0e 5 5 6 ∧
    dispatch ⟨0x20, 6, [1, 2, 3]⟩ = .lengthMismatch 0x20 7 11 6 ∧
    dispatch ⟨0x20, 12, List.replicate 9 1⟩ = .lengthMismatch 0x20 7 11 12 ∧
    dispatch ⟨0x2b, 3, []⟩ = .unknownMessage 0x2b ∧ dispatch ⟨0x21, 4, [0]⟩ = .unknownMessage 0x21 ∧
    outs (exec (.disp 0x0e 2 []) State.reset) = some [.opRefused 6] := by decide

/-! ### The clock unpacker -/

/-- V44-1. -/
theorem test_bwcls :
    outs (exec (.bwcls ⟨0x01, 0x10, 0x0a, 0x1a, 0x00, 0x00, 0x00⟩) State.reset) = some [.isAck] ∧
    outs (exec (.bwcls ⟨0x7a, 0xff, 0xff, 0xff, 0xff, 0xff, 0xff⟩) State.reset) = some [.isAck] ∧
    outs (exec (.bwcls ⟨0xa0, 0x00, 0x00, 0xa0, 0x00, 0x00, 0x00⟩) State.reset) = some [.isTime] ∧
    outs (exec (.bwcls ⟨0x00, 0x0a, 0x0a, 0x00, 0x0a, 0x0a, 0x0a⟩) State.reset) = some [.isTime] := by decide

/-- The fields of an acknowledgement that the spec fixes for every payload. -/
def ackFields (a : ClockAck) : Byte × Byte × Byte × Byte × AckStatus × Bool × BitVec 7 :=
  (a.ack0, a.ack1, a.ack2, a.ack3, a.status, a.auto, a.sub)

/-- V44-2. -/
theorem test_acku :
    ackFields (ackUnpack ⟨0x2a, 0x10, 0x0b, 0x0a, 0x12, 0x34, 0x00⟩) = (0x10, 0x0b, 0x12, 0xb4, .normal, false, 0x0b) ∧
    ackFields (ackUnpack ⟨0x3a, 0x40, 0x08, 0x3a, 0x7f, 0x35, 0x01⟩) = (0xc0, 0x88, 0xff, 0xb5, .errorFlag, true, 0x08) ∧
    ackFields (ackUnpack ⟨0x0a, 0x40, 0x0a, 0x0a, 0x00, 0x00, 0x00⟩) = (0x40, 0x0a, 0x00, 0x00, .rejected, false, 0x0a) ∧
    ackFields (ackUnpack ⟨0xa0, 0x00, 0x00, 0xa0, 0x00, 0x00, 0x00⟩) = (0x00, 0x80, 0x00, 0x80, .other, true, 0x00) :=
  ⟨rfl, rfl, rfl, rfl⟩

/-- S4 through the port, and V44-3. -/
theorem test_acku_ready :
    outs (exec (.acku ⟨0x00, 0x10, 0x01, 0x2a, 0x00, 0x00, 0x7f⟩) State.reset) =
      some [.clockAck ⟨0x10, 0x81, 0x00, 0x00, .normal, true, 0x01, .ready⟩] ∧
    ackPack 0xff 0xff 0xff 0xff 0x55 = ⟨0x3a, 0x7f, 0x7f, 0x3a, 0x7f, 0x7f, 0x55⟩ ∧
    ackPack 0x90 0x09 0x80 0x7f 0 = ⟨0x1a, 0x10, 0x09, 0x1a, 0x00, 0x7f, 0x00⟩ := by decide

/-! ### The port and the command bytes -/

/-- V70-1. -/
theorem test_rst :
    regs (exec .rst (st .payload 0x06 67 7 [(0, 1), (1, 2)] 0x33)) = some (.idle, 0, 0, 0, 0) ∧
    cell 1 (exec .rst (st .payload 0x06 67 7 [(0, 1), (1, 2)] 0x33)) = some 2 := by decide

/-- V70-3. -/
theorem test_reserved :
    [Instr.reserved9, .reserved10, .reserved11, .reserved12, .reserved13, .reserved14, .reserved15].map
        (fun i => outs (exec i State.reset)) =
      [9, 10, 11, 12, 13, 14, 15].map (fun op => some [Output.opRefused op]) := by decide

/-- V45-2. -/
theorem test_command_codes_sum : checksum commandCodes = 0x5b := by decide

/-- R145: a command byte is the host's; the block does not move. -/
theorem test_command_passes_by :
    sent (exec .cmdSendBoard (st .lenLo 0x0e 0 2 [] 0x33)) = some [0x42] ∧
    regs (exec .cmdSendBoard (st .lenLo 0x0e 0 2 [] 0x33)) = some (.lenLo, 0x0e, 0, 2, 0x33) ∧
    outs (exec .clkBeep State.reset) = some [] := by decide

/-! ### Witnesses: values that meet the hypotheses of each obligation together -/

/-- A state in the middle of a payload: cell 0 of a five-byte field-update frame is written. -/
def midPayload : State := st .payload 0x0e 5 4 [(0, 0x04)] 0

/-- The states of R21's five rows, at the boundaries of the payload row, meet the invariant. -/
theorem witness_Inv :
    State.reset.Inv ∧ (st .hunt 0x0e 2 0 [] 0x7f).Inv ∧ (st .lenHi 0x0e 0 1 [] 0).Inv ∧ (st .lenLo 0x0e 16256 2 [] 0).Inv ∧
      (st .payload 0x0e 4 3 [] 0).Inv ∧ midPayload.Inv := by
  refine ⟨⟨rfl, rfl⟩, ⟨rfl, rfl⟩, ⟨rfl, rfl⟩, ⟨rfl, rfl, rfl⟩, ⟨rfl, by decide, by decide, fun a h => ?_⟩,
    ⟨rfl, by decide, by decide, fun a h => ?_⟩⟩
  · exact absurd h (Nat.not_lt_zero a)
  · have : a = 0 := Nat.lt_one_iff.1 h
    subst this; rfl

/-- `DecodeUndoesEncode`, `EveryInstructionCompletes`, `EachOperationAnswersOneOutputOfItsSet`: well-formed instructions of
each code space, at the least and the greatest counts. -/
theorem witness_wellFormed :
    (Instr.txf 0x7f []).wf = true ∧ (Instr.disp 0x0d 0 []).wf = true ∧ (Instr.disp 0x0e 3 []).wf = true ∧
    (Instr.msgFieldUpdate 5 [0x04, 0x01]).wf = true ∧ (Instr.msgFieldUpdate 2 []).wf = true ∧ Instr.clkEnd.wf = true ∧
    (encode (.disp 0x0d 0 [])).format = .op ∧ (Instr.msgTrademark 16383 (List.replicate 16380 0x41)).wf = true := by
  refine ⟨rfl, rfl, rfl, rfl, rfl, rfl, rfl, ?_⟩
  simp only [Instr.wf, payloadFits, List.length_replicate]; decide

/-- `EveryInstructionCompletes` and `EachOperationAnswersOneOutputOfItsSet`: instruction and state together. -/
theorem witness_EveryInstructionCompletes :
    (Instr.rxb 0x01).wf = true ∧ midPayload.Inv ∧ (encode (.rxb 0x01)).format = .op ∧
      (Instr.msgVersion 5 [0x01, 0x02]).wf = true ∧ State.reset.Inv :=
  ⟨rfl, witness_Inv.2.2.2.2.2, rfl, rfl, witness_Inv.1⟩

/-- `EncodeUndoesDecode`. -/
theorem witness_EncodeUndoesDecode :
    decode ⟨.op, [0x02, 0x7f, 0x00, 0x01, 0xff, 0x33]⟩ = .ok (.txf 0x7f [0xff], [0x33]) := by rfl

/-- `StepRunsTheDecodedInstruction`. -/
theorem witness_StepRunsTheDecodedInstruction :
    ({ State.reset with port := [⟨.op, [0x03]⟩] } : State).port = [⟨.op, [0x03]⟩] ∧ decode ⟨.op, [0x03]⟩ = .ok (.csclr, []) :=
  ⟨rfl, rfl⟩

/-- `StepHoldsWhenNothingIsPresented`. -/
theorem witness_StepHoldsWhenNothingIsPresented : State.reset.port = [] := rfl

/-- `BytesThatAreNoRowHaveTheirEffect`: each clause; the last just off both ends of a fitting payload. -/
theorem witness_BytesThatAreNoRow :
    (({ State.reset with port := [⟨.msg, [0xa1, 0x00, 0x03]⟩] } : State).port = [⟨.msg, [0xa1, 0x00, 0x03]⟩] ∧
      decode ⟨.msg, [0xa1, 0x00, 0x03]⟩ = .error (.unknownMessageId 0xa1)) ∧
    decode ⟨.cmd, [0x48]⟩ = .error (.unassignedCommand 0x48) ∧
    decode ⟨.clksub, [0x04]⟩ = .error (.unassignedSubCommand 0x04) ∧
    decode ⟨.op, [0x01]⟩ = .error .truncated ∧
    (3 ≤ (3 : Len).toNat ∧ ([0x04] : List Byte).length + 3 ≠ (3 : Len).toNat) ∧
    (3 ≤ (5 : Len).toNat ∧ ([0x04] : List Byte).length + 3 ≠ (5 : Len).toNat) := by
  refine ⟨⟨rfl, rfl⟩, rfl, rfl, rfl, by decide, by decide⟩

/-- `RstGivesTheResetState` (its second clause), `RstForgetsEverything`. -/
theorem witness_RstForgetsEverything :
    midPayload.Inv ∧ (∃ t, exec .rst midPayload = .next t) ∧ ∀ i ∈ [Instr.rxb 0x8e, .csadd 0x01], i.wf = true :=
  ⟨witness_Inv.2.2.2.2.2, ⟨_, rfl⟩, by decide⟩

/-- `EveryStepKeepsTheInvariant`. -/
theorem witness_EveryStepKeepsTheInvariant :
    ({ midPayload with port := [⟨.op, [0x01, 0x01]⟩] } : State).Inv ∧
      ∃ t, step { midPayload with port := [⟨.op, [0x01, 0x01]⟩] } = .next t :=
  ⟨witness_Inv.2.2.2.2.2, ⟨_, rfl⟩⟩

/-- `RunsNeverStop`: a state with an operation, an unassigned command code and no operation at all presented. -/
theorem witness_RunsNeverStop :
    ({ midPayload with port := [⟨.op, [0x00]⟩, ⟨.cmd, [0x48]⟩, ⟨.op, []⟩] } : State).Inv := witness_Inv.2.2.2.2.2

/-- `RxsAgreesWithDecodeAll` (a state in sync that is not reset) and `EveryByteIsAccountedFor` (one in a payload). -/
theorem witness_runsOfBytes :
    (st .idle 0x0e 5 0 [(0, 0x04), (1, 0x01)] 0x33).Inv ∧ (st .idle 0x0e 5 0 [(0, 0x04), (1, 0x01)] 0x33).rxState = .idle ∧
      midPayload.Inv := ⟨⟨rfl, rfl⟩, rfl, witness_Inv.2.2.2.2.2⟩

/-- `HeaderByteStartsAFrame`, `LowBytesOutsideAFrame`, in both states, at the least and the greatest bytes of each kind. -/
theorem witness_bytesOutsideAFrame :
    State.reset.rxState = .idle ∧ State.reset.rxCnt = 0 ∧ (st .hunt 0 0 0 [] 0).rxState = .hunt ∧
      (0x80 : Byte)[7] = true ∧ (0xff : Byte)[7] = true ∧ (0x00 : Byte)[7] = false ∧ (0x7f : Byte)[7] = false := by
  decide

/-- `LengthByteOne`, `LengthByteTwoNotClean`. -/
theorem witness_lengthBytes :
    (st .lenHi 0x0e 0 1 [] 0).rxState = .lenHi ∧ (st .lenLo 0x0e 128 2 [] 0).rxState = .lenLo ∧
      (0x80 : Byte)[7] = true ∧ (0x7f : Byte)[7] = false := by decide

/-- `LengthByteTwoClean`, each clause at its boundary: lengths 0 and 2, 3, 4, 128 and 16383. -/
theorem witness_LengthByteTwoClean :
    ([(0, 0x00, 0), (0, 0x02, 2), (0, 0x03, 3), (0, 0x04, 4), (128, 0x00, 128), (16256, 0x7f, 16383)] :
      List (Len × Byte × Len)).all (fun r =>
        (st .lenLo 0x0e r.1 2 [] 0).rxState = .lenLo && r.2.1[7] = false && r.2.2 = (r.1 ||| r.2.1.setWidth 14)) = true := by
  decide

/-- `PayloadByteIsStoredAndTheLastOneDelivers`: a byte that is not the last (the first of two), and the last one (of two, and
of one). -/
theorem witness_PayloadByte :
    ((st .payload 0x0e 5 3 [] 0).rxState = .payload ∧ 3 ≤ (3 : Len).toNat ∧ (3 : Len).toNat + 1 < (5 : Len).toNat ∧
      Written [] ((3 : Len).toNat - 3)) ∧
    (midPayload.rxState = .payload ∧ 3 ≤ midPayload.rxCnt.toNat ∧ midPayload.rxCnt.toNat + 1 = midPayload.rxLen.toNat ∧
      Written midPayload.rxBuf (midPayload.rxCnt.toNat - 3)) ∧
    ((st .payload 0x0e 4 3 [] 0).rxState = .payload ∧ (3 : Len).toNat + 1 = (4 : Len).toNat) := by
  refine ⟨⟨rfl, by decide, by decide, fun a h => absurd h (Nat.not_lt_zero a)⟩,
    ⟨rfl, by decide, by decide, witness_Inv.2.2.2.2.2.2.2.2⟩, rfl, by decide⟩

/-- `FrameInvalidHasFourCauses`, `ParserNeverStuckAfterFrameInvalid`: each of the four causes occurs. -/
theorem witness_FrameInvalid :
    (∃ t, exec (.rxb 0x05) State.reset = .next t ∧ t.out = [.frameInvalid .notStart 1]) ∧
    (∃ t, exec (.rxb 0x93) (st .lenHi 0x0e 0 1 [] 0) = .next t ∧ t.out = [.frameInvalid .lenNotClean 1]) ∧
    (∃ t, exec (.rxb 0x93) (st .lenLo 0x0e 0 2 [] 0) = .next t ∧ t.out = [.frameInvalid .lenNotClean 2]) ∧
    (∃ t, exec (.rxb 0x02) (st .lenLo 0x0e 0 2 [] 0) = .next t ∧ t.out = [.frameInvalid .lenRange 3]) ∧
    (0x8e : Byte)[7] = true :=
  ⟨⟨_, rfl, rfl⟩, ⟨_, rfl, rfl⟩, ⟨_, rfl, rfl⟩, ⟨_, rfl, rfl⟩, rfl⟩

/-- `EncodedFramesRoundTrip`: the least and the greatest payload. -/
theorem witness_EncodedFramesRoundTrip :
    ([] : List Byte).length ≤ 16380 ∧ (List.replicate 16380 (0x41 : Byte)).length ≤ 16380 ∧
      2 < ([] : List Byte).length + 3 ∧ (st .hunt 0 0 0 [] 0).rxState = .hunt := by
  rw [List.length_replicate]; decide

/-- `WholeFramesAreDelivered` (one row of its list, the least, a middle and the greatest length) and
`ShortFramesAreInvalid`. -/
theorem witness_frames :
    ([] : List Byte).length + 3 = (3 : Len).toNat ∧ ([0x04, 0x01] : List Byte).length + 3 = (5 : Len).toNat ∧
      (List.replicate 16380 (0x41 : Byte)).length + 3 = (16383 : Len).toNat ∧ (2 : Len).toNat < 3 ∧ (0 : Len).toNat < 3 ∧
      (0x0e, Instr.msgFieldUpdate).2 5 [0x04, 0x01] = .msgFieldUpdate 5 [0x04, 0x01] ∧ State.reset.rxState = .idle := by
  rw [List.length_replicate]; decide

/-- `SequencesCompose`: both sides of its equivalence are met. -/
theorem witness_SequencesCompose :
    ∃ u, execList ([.csadd 0x01] ++ [.csadd 0x02]) State.reset = .next u ∧ u.out = [.sum 0x01, .sum 0x03] := ⟨_, rfl, rfl⟩

/-- `BufferDecisionsSurviveMoreBytes`: both decisions. -/
theorem witness_BufferDecisions :
    tryDecodeFrame [0x05] ≠ .incomplete ∧ tryDecodeFrame [0x8e, 0x00, 0x03] ≠ .incomplete := by decide

/-- `TxfAnswersTheFrameOrRefuses`: 16380 and 16381 payload bytes. -/
theorem witness_Txf :
    (List.replicate 16380 (0 : Byte)).length ≤ 16380 ∧ 16380 < (List.replicate 16381 (0 : Byte)).length := by
  rw [List.length_replicate, List.length_replicate]; decide

/-- `TxfOutputHasAFrameHeader`. -/
theorem witness_TxfOutputHasAFrameHeader :
    ∃ t, exec (.txf 0x0e [0x04, 0x01]) State.reset = .next t ∧ t.out = [.bytes [0x8e, 0x00, 0x05, 0x04, 0x01]] := ⟨_, rfl, rfl⟩

/-- `LengthHalvesReassemble`, and the clauses of `CschkComparesAllEightBits`. -/
theorem witness_lengthAndCheck :
    16383 ≤ 0x3FFF ∧ (0x50 : Byte).toNat = (st .idle 0 0 0 [] 0x50).csAcc.toNat ∧
      (0xd0 : Byte).toNat ≠ (st .idle 0 0 0 [] 0x50).csAcc.toNat ∧ (0xd0 : Byte)[7] = true := by decide

/-- `WhatTheChecksumDetects`, the three clauses with hypotheses (V42-4). -/
theorem witness_WhatTheChecksumDetects :
    ([0x12, 0x34] : List Byte).Perm [0x34, 0x12] ∧
      ([0x12, 0x34] : List Byte).map (BitVec.setWidth 7) = ([0x92, 0x34] : List Byte).map (BitVec.setWidth 7) ∧
      (0x12 : Byte).setWidth 7 ≠ (0x13 : Byte).setWidth 7 := by decide

/-- `DispAnswersTheDispatchResult`, both clauses: lengths 3, 5, 2. -/
theorem witness_Disp :
    ([] : List Byte).length + 3 = (3 : Len).toNat ∧ ([0x04, 0x01] : List Byte).length + 3 = (5 : Len).toNat ∧
      (2 : Len).toNat < 3 := by decide

/-- `BwtimeFrames` and `BwclsLooksAtTwoNibbles`, each clause; lengths 9 and 11 for the third. -/
theorem witness_Bwtime :
    ((0x0a : Byte).setWidth 4 = (0xA : BitVec 4) ∨ (0x00 : Byte).setWidth 4 = (0xA : BitVec 4)) ∧
      ¬((0xa0 : Byte).setWidth 4 = (0xA : BitVec 4) ∨ (0x0b : Byte).setWidth 4 = (0xA : BitVec 4)) ∧
      (9 : Len).toNat ≠ 10 ∧ (11 : Len).toNat ≠ 10 := by decide

/-- `LengthMismatchReportsTheDiscrepancy`: a fixed size and a range, just outside each end of the range. -/
theorem witness_LengthMismatch :
    (([0x04] : List Byte).length + 3 = (4 : Len).toNat ∧ dispatch ⟨0x0e, 4, [0x04]⟩ = .lengthMismatch 0x0e 5 5 4) ∧
      (([1, 2, 3] : List Byte).length + 3 = (6 : Len).toNat ∧ dispatch ⟨0x20, 6, [1, 2, 3]⟩ = .lengthMismatch 0x20 7 11 6) ∧
      ((List.replicate 9 (1 : Byte)).length + 3 = (12 : Len).toNat ∧
        dispatch ⟨0x20, 12, List.replicate 9 1⟩ = .lengthMismatch 0x20 7 11 12) := by decide

/-- `ReadyUnsolicitedAck` (S4). -/
theorem witness_ReadyUnsolicitedAck :
    (ackUnpack ⟨0x0a, 0x10, 0x01, 0x2a, 0x00, 0x00, 0x00⟩).ack0 = 0x10 ∧
      (ackUnpack ⟨0x0a, 0x10, 0x01, 0x2a, 0x00, 0x00, 0x00⟩).ack1 = 0x81 := by decide

/-- `PackedAcksUnpack`. -/
theorem witness_PackedAcksUnpack :
    (⟨0x0a, 0x10, 0x01, 0x2a, 0x00, 0x00, 0x00⟩ : BwPayload) = ackPack 0x10 0x81 0x00 0x00 0x00 := by decide

/-- `IgnoredBitsDoNotMatter`: two payloads that differ in every ignored bit. -/
theorem witness_IgnoredBits :
    ∃ p q : BwPayload, p ≠ q ∧ p.b1.setWidth 7 = q.b1.setWidth 7 ∧ p.b2.setWidth 7 = q.b2.setWidth 7 ∧
      p.b4.setWidth 7 = q.b4.setWidth 7 ∧ p.b5.setWidth 7 = q.b5.setWidth 7 ∧
      p.b0[4] = q.b0[4] ∧ p.b0[5] = q.b0[5] ∧ p.b3[4] = q.b3[4] ∧ p.b3[5] = q.b3[5] :=
  ⟨⟨0x30, 0x80, 0x81, 0x20, 0x82, 0x83, 0xff⟩, ⟨0xff, 0x00, 0x01, 0xef, 0x02, 0x03, 0x00⟩, by decide⟩

/-- `CommandCodesAreDistinctAndClean`: its two clauses about `RXB`. -/
theorem witness_commandCodes :
    (0x60 : Byte) ∈ commandCodes ++ subCommandCodes ∧ State.reset.rxState = .idle ∧ State.reset.rxCnt = 0 ∧
      (st .hunt 0 0 0 [] 0).rxState = .hunt := by decide

/-- `EachOperationTouchesOnlyItsUnit`: an operation outside every exception. -/
theorem witness_EachOperationTouchesOnlyItsUnit :
    (∃ t, exec (.cschk 0x00) midPayload = .next t) ∧ (encode (.cschk 0x00)).format ≠ .msg ∧
      (∀ d, Instr.cschk 0x00 ≠ .rxb d) ∧ Instr.cschk 0x00 ≠ .rst ∧ Instr.cschk 0x00 ≠ .csclr ∧
      (∀ d, Instr.cschk 0x00 ≠ .csadd d) := by
  refine ⟨⟨_, rfl⟩, by decide, fun d => ?_, by decide, by decide, fun d => ?_⟩ <;> exact Instr.noConfusion

/-- `UnitsCommute`. -/
theorem witness_UnitsCommute :
    (encode (.csadd 0x01)).format = .op ∧ Instr.csadd 0x01 ≠ .rst ∧ (∀ e, Instr.csadd 0x01 ≠ .rxb e) ∧
      (∃ s1, exec (.csadd 0x01) midPayload = .next s1) ∧ ∃ t, exec (.rxb 0x01) midPayload = .next t :=
  ⟨rfl, by decide, fun e => by exact Instr.noConfusion, ⟨_, rfl⟩, ⟨_, rfl⟩⟩

/-- `BufferLeftoversAreUnobservable`: two states in the middle of one payload, with different leftovers. -/
theorem witness_BufferLeftovers :
    midPayload.Inv ∧ (st .payload 0x0e 5 4 [(0, 0x04), (7, 0x55)] 0).Inv ∧
      SameView midPayload (st .payload 0x0e 5 4 [(0, 0x04), (7, 0x55)] 0) ∧ ∀ i ∈ [Instr.rxb 0x01], i.wf = true := by
  refine ⟨witness_Inv.2.2.2.2.2, ⟨rfl, by decide, by decide, fun a h => ?_⟩, ⟨rfl, rfl, rfl, rfl, rfl, fun _ a h => ?_⟩,
    by decide⟩
  · have : a = 0 := Nat.lt_one_iff.1 h
    subst this; rfl
  · have : a = 0 := Nat.lt_one_iff.1 h
    subst this; rfl

/-- `InstancesAreIndependent`: two instances, the second operated. -/
theorem witness_InstancesAreIndependent :
    (∃ after, execAt (1 : Fin 2) (.csadd 0x05) (Vector.replicate 2 State.reset) = .next after) ∧ (0 : Fin 2) ≠ 1 :=
  ⟨⟨_, rfl⟩, by decide⟩

/-- `ReservedSelectCodesAreRefused`, `CommandsLeaveTheBlockAlone`, `SubCommandsLeaveTheBlockAlone`, `FixedSizeMessages`,
`VariableSizeMessages`: their lists are not empty, and hold what they say. -/
theorem witness_lists :
    (Instr.reserved9, (9 : BitVec 4)) ∈ [(Instr.reserved9, (9 : BitVec 4)), (.reserved15, 15)] ∧
      (Instr.cmdReset, (0x40 : Byte)) ∈ [(Instr.cmdReset, (0x40 : Byte))] ∧
      ((0x06 : MsgId), MessageKind.boardDump, 67) ∈ [((0x06 : MsgId), MessageKind.boardDump, 67)] := by decide

end Sys2Proof.Tests
end

section
/-! PROOFS. The reserved select codes of the port (spec/30_encoding.md R60): each is dispatched to the one shared refusal, and
the refusal changes nothing but the answer. -/

namespace Sys2Proof.Encoding

open Sys2Proof Sys2Proof.Machine

/-- An error that leaves the parser where it is changes only what crosses the port (R181). -/
theorem raise_stay (s : State) (e : Output) : s.raise e .stay = { s with out := [e], hostSent := [] } := rfl

/-- The whole effect of a refusal (R60, R187): every register, the buffer and the port are as before. -/
theorem refuseOp_eq (op : BitVec 4) (s : State) :
    refuseOp op s = .next { s with out := [.opRefused op], hostSent := [] } := by
  rw [refuseOp, raise_stay]

/-- The seven reserved instructions, each with its select code, as R60 lists them. -/
def reservedRows : List (Instr × BitVec 4) :=
  [(.reserved9, 9), (.reserved10, 10), (.reserved11, 11), (.reserved12, 12), (.reserved13, 13), (.reserved14, 14),
    (.reserved15, 15)]

/-- The dispatch hands every reserved instruction to the refusal of its own code, and of no other. -/
theorem exec_reserved_eq_refuseOp (s : State) : ∀ row ∈ reservedRows, exec row.1 s = refuseOp row.2 s := by
  simp only [reservedRows, List.forall_mem_cons]
  exact ⟨rfl, rfl, rfl, rfl, rfl, rfl, rfl, List.forall_mem_nil _⟩

/-- Settles O53: the dispatch reaches the shared refusal, whose effect does not depend on the code. -/
theorem reservedSelectCodesAreRefused : Obligations.ReservedSelectCodesAreRefused := by
  intro row hrow s
  calc exec row.1 s
      _ = refuseOp row.2 s := exec_reserved_eq_refuseOp s row hrow
      _ = .next { s with out := [.opRefused row.2], hostSent := [] } := refuseOp_eq row.2 s

end Sys2Proof.Encoding
end

section
/-! PROOFS. The frame decoder (spec/40_frame_decoder.md R66 to R76): one equation for each rule of `RXB`, with the condition
under which the rule applies, and the rule of `resync`. The statements about a byte in each parser state are these equations
with the shared operations read as record updates. -/

namespace Sys2Proof.FrameDecoder

open Sys2Proof Sys2Proof.Machine

/-! ### The operands of a receive byte -/

/-- A clean length byte 2 is its own low half (R51, R72): dropping its high bit drops nothing. -/
theorem lenLow_of_highBit_eq_false {d : Byte} (hd : highBit d = false) : lenLow d = d.setWidth 14 := by
  rw [highBit_eq_decide, decide_eq_false_iff_not, Nat.not_le] at hd
  apply BitVec.eq_of_toNat_eq
  simp only [lenLow, low7, BitVec.toNat_setWidth]
  omega

/-- A clean length byte 1 stands for 128 times its value (R51, R70). -/
theorem lenHigh_toNat {d : Byte} (hd : highBit d = false) : (lenHigh d).toNat = 128 * d.toNat := by
  have hzero : highBit 0 = false := rfl
  simpa [lenLow, low7] using assemble_toNat d 0 hd hzero

/-- From byte 3 on, the cell a payload byte goes to is its wire index less the three header bytes (R73). -/
theorem cellIndex_toNat {c : Len} (h : 3 ≤ c.toNat) : (cellIndex c).toNat = c.toNat - 3 :=
  BitVec.toNat_sub_of_le (BitVec.le_def.2 h)

/-- The cell of a byte that lies before the end of its frame exists (R30): `rx_buf` is as long as the longest payload. -/
theorem cellIndex_lt_rxBufSize {c L : Len} (hlo : 3 ≤ c.toNat) (hhi : c.toNat < L.toNat) :
    (cellIndex c).toNat < Config.rxBufSize := by
  have hL : L.toNat < 2 ^ 14 := L.isLt
  rw [cellIndex_toNat hlo, Config.rxBufSize]
  omega

/-- Counting a byte does not wrap while the frame is not complete. -/
theorem succ_toNat_of_lt {c L : Len} (h : c.toNat < L.toNat) : (c + 1).toNat = c.toNat + 1 := by
  have hL : L.toNat < 2 ^ 14 := L.isLt
  have hone : (1 : Len).toNat = 1 := rfl
  rw [BitVec.toNat_add_of_lt (by omega), hone]

/-! ### One equation for each rule of `RXB` -/

theorem exec_rxb (d : Byte) (s : State) : exec (.rxb d) s = rxByte d s := rfl

section Rules

variable {s : State} {d : Byte}

/-- R67. -/
theorem rxByte_of_awaiting (hs : s.rxState = .idle ∨ s.rxState = .hunt) (hd : highBit d = true) :
    rxByte d s = .next ((s.startFrame d).answer .nothing) := by
  obtain hs | hs := hs
  · simp only [rxByte, hs, hd, if_true]
  · simp only [rxByte, hs, hd, if_true]

/-- R68. -/
theorem rxByte_idle_low (hs : s.rxState = .idle) (hd : highBit d = false) :
    rxByte d s = .next (s.raise (.frameInvalid .notStart 1) .hunt) := by
  simp only [rxByte, hs, hd, Bool.false_eq_true, if_false]

/-- R69. -/
theorem rxByte_hunt_low (hs : s.rxState = .hunt) (hd : highBit d = false) :
    rxByte d s = .next (s.answer .skipped) := by
  simp only [rxByte, hs, hd, Bool.false_eq_true, if_false]

/-- R70, the clean arm. -/
theorem rxByte_lenHi_clean (hs : s.rxState = .lenHi) (hd : highBit d = false) :
    rxByte d s = .next ({ s with rxLen := lenHigh d, rxCnt := 2, rxState := .lenLo }.answer .nothing) := by
  simp only [rxByte, hs, rxLenHi, hd, Bool.false_eq_true, if_false]

/-- R70, the error arm. -/
theorem rxByte_lenHi_notClean (hs : s.rxState = .lenHi) (hd : highBit d = true) :
    rxByte d s = .next (s.raise (.frameInvalid .lenNotClean 1) (.restart d)) := by
  simp only [rxByte, hs, rxLenHi, hd, if_true]

/-- R71. -/
theorem rxByte_lenLo_notClean (hs : s.rxState = .lenLo) (hd : highBit d = true) :
    rxByte d s = .next (s.raise (.frameInvalid .lenNotClean 2) (.restart d)) := by
  simp only [rxByte, hs, rxLenLo, hd, if_true]

/-- R72, below the least length. -/
theorem rxByte_lenLo_short (hs : s.rxState = .lenLo) (hd : highBit d = false)
    (hL : (s.rxLen ||| lenLow d).toNat < 3) :
    rxByte d s = .next (s.raise (.frameInvalid .lenRange 3) .hunt) := by
  simp only [rxByte, hs, rxLenLo, hd, Bool.false_eq_true, if_false, if_pos hL]

/-- R72, the empty payload. -/
theorem rxByte_lenLo_empty (hs : s.rxState = .lenLo) (hd : highBit d = false)
    (hL : (s.rxLen ||| lenLow d).toNat = 3) :
    rxByte d s =
      .next ({ s with rxLen := s.rxLen ||| lenLow d }.complete s.rxId (s.rxLen ||| lenLow d) []) := by
  have hmin : ¬ (s.rxLen ||| lenLow d).toNat < Config.minLen := by rw [hL]; decide
  simp only [rxByte, hs, rxLenLo, hd, Bool.false_eq_true, if_false, if_neg hmin, if_pos hL]

/-- R72, a payload follows. -/
theorem rxByte_lenLo_payload (hs : s.rxState = .lenLo) (hd : highBit d = false)
    (hL : 3 < (s.rxLen ||| lenLow d).toNat) :
    rxByte d s =
      .next ({ s with rxLen := s.rxLen ||| lenLow d, rxCnt := 3, rxState := .payload }.answer .nothing) := by
  have hmin : ¬ (s.rxLen ||| lenLow d).toNat < Config.minLen := Nat.not_lt.2 hL.le
  have hhdr : (s.rxLen ||| lenLow d).toNat ≠ Config.hdr := hL.ne'
  simp only [rxByte, hs, rxLenLo, hd, Bool.false_eq_true, if_false, if_neg hmin, if_neg hhdr]

/-- R73, a byte that is not the last. -/
theorem rxByte_payload_more (hs : s.rxState = .payload) (ha : (cellIndex s.rxCnt).toNat < Config.rxBufSize)
    (hmore : s.rxCnt + 1 ≠ s.rxLen) :
    rxByte d s =
      .next ({ s with rxBuf := s.rxBuf.write (cellIndex s.rxCnt).toNat d, rxCnt := s.rxCnt + 1 }.answer .nothing) := by
  have hw := (memWrite_eq_ok_iff s.rxBuf _ _ d).2 ⟨ha, rfl⟩
  simp only [rxByte, hs, rxPayload, hw, if_neg hmore]

/-- R73, the last byte: what completes the frame is read from the buffer as just written. -/
theorem rxByte_payload_last {p : List Byte} (hs : s.rxState = .payload)
    (ha : (cellIndex s.rxCnt).toNat < Config.rxBufSize) (hlast : s.rxCnt + 1 = s.rxLen)
    (hread : readCells (s.rxBuf.write (cellIndex s.rxCnt).toNat d) 0 (s.rxLen.toNat - 3) = .ok p) :
    rxByte d s =
      .next ({ s with rxBuf := s.rxBuf.write (cellIndex s.rxCnt).toNat d }.complete s.rxId s.rxLen p) := by
  have hw := (memWrite_eq_ok_iff s.rxBuf _ _ d).2 ⟨ha, rfl⟩
  simp only [rxByte, hs, rxPayload, hw, if_pos hlast, hread]

end Rules

/-! ### The payload cells -/

/-- Writing the first cell past a written run makes the run one cell longer (R19). -/
theorem written_write_succ {m : Memory} {n : Nat} (d : Byte) (h : Written m n) : Written (m.write n d) (n + 1) := by
  intro a ha
  rw [Memory.read_write]
  split_ifs with heq
  · rfl
  · exact h a (by omega)

/-- A written run of cells can be read (R73). -/
theorem exists_readCells_of_written {m : Memory} {n : Nat} (hn : n ≤ Config.rxBufSize) (h : Written m n) :
    ∃ p, readCells m 0 n = .ok p := by
  refine ⟨List.ofFn fun i : Fin n => (m.read i).get (h i i.isLt), (readCells_eq_ok_iff _ _ _ _).2 ⟨by simp, ?_⟩⟩
  intro i hi
  refine ⟨by omega, ?_⟩
  simp [hi]

/-! ### The statements about `RXB` -/

/-- Settles O19: the written run grows by the byte's own cell, so the last byte finds every cell of its payload written. -/
theorem payloadByteIsStoredAndTheLastOneDelivers : Obligations.PayloadByteIsStoredAndTheLastOneDelivers := by
  intro s d hs hlo hhi hw
  have ha := cellIndex_lt_rxBufSize hlo hhi
  have hcell := cellIndex_toNat hlo
  have hsucc := succ_toNat_of_lt hhi
  refine ⟨s.rxBuf.write (s.rxCnt.toNat - 3) d, Memory.read_write_same _ _ _,
    fun b hb => Memory.read_write_other _ _ b d hb, fun hmore => ?_, fun hlast => ?_⟩
  · have hne : s.rxCnt + 1 ≠ s.rxLen := fun h => by rw [← h, hsucc] at hmore; exact lt_irrefl _ hmore
    rw [exec_rxb, rxByte_payload_more hs ha hne, hcell]
    rfl
  · have hall : Written (s.rxBuf.write (s.rxCnt.toNat - 3) d) (s.rxLen.toNat - 3) := by
      rw [show s.rxLen.toNat - 3 = s.rxCnt.toNat - 3 + 1 by omega]
      exact written_write_succ d hw
    have hsize : s.rxLen.toNat - 3 ≤ Config.rxBufSize := by
      rw [hcell] at ha
      omega
    obtain ⟨p, hread⟩ := exists_readCells_of_written hsize hall
    obtain ⟨hlen, hcells⟩ := (readCells_eq_ok_iff _ _ _ _).1 hread
    refine ⟨p, hlen, fun j hj => ?_, ?_⟩
    · simpa using (hcells j (hlen ▸ hj)).2.symm
    · have hend : s.rxCnt + 1 = s.rxLen := BitVec.eq_of_toNat_eq (hsucc.trans hlast)
      rw [exec_rxb, rxByte_payload_last hs ha hend (hcell ▸ hread), hcell]
      rfl

/-- Settles O14. -/
theorem headerByteStartsAFrame : Obligations.HeaderByteStartsAFrame := by
  intro s d hs hd
  calc exec (.rxb d) s
      _ = .next ((s.startFrame d).answer .nothing) := rxByte_of_awaiting hs hd
      _ = _ := rfl

/-- Settles O15: in sync `rx_cnt` is already 0, so going to hunt writes only the parser state (log 19). -/
theorem lowBytesOutsideAFrame : Obligations.LowBytesOutsideAFrame := by
  intro s d hd
  refine ⟨fun hs hcnt => ?_, fun hs => rxByte_hunt_low hs hd⟩
  calc exec (.rxb d) s
      _ = .next (s.raise (.frameInvalid .notStart 1) .hunt) := rxByte_idle_low hs hd
      _ = .next { s with rxState := .hunt, rxCnt := 0, out := [.frameInvalid .notStart 1], hostSent := [] } := rfl
      _ = _ := by rw [← hcnt]

/-- Settles O16: in the error arm the parser restarts in the state it is already in. -/
theorem lengthByteOne : Obligations.LengthByteOne := by
  intro s d hs
  refine ⟨fun hd => ⟨lenHigh d, lenHigh_toNat hd, rxByte_lenHi_clean hs hd⟩, fun hd => ?_⟩
  calc exec (.rxb d) s
      _ = .next (s.raise (.frameInvalid .lenNotClean 1) (.restart d)) := rxByte_lenHi_notClean hs hd
      _ = .next { s with rxId := d.setWidth 7, rxCnt := 1, rxState := .lenHi,
                         out := [.frameInvalid .lenNotClean 1], hostSent := [] } := rfl
      _ = _ := by rw [← hs]

/-- Settles O17. -/
theorem lengthByteTwoNotClean : Obligations.LengthByteTwoNotClean := by
  intro s d hs hd
  calc exec (.rxb d) s
      _ = .next (s.raise (.frameInvalid .lenNotClean 2) (.restart d)) := rxByte_lenLo_notClean hs hd
      _ = _ := rfl

/-- Settles O18: the length is clean, so it is the one `RXB` assembles, and the three arms are the three cases of R72. -/
theorem lengthByteTwoClean : Obligations.LengthByteTwoClean := by
  intro s d L hs hd hL
  rw [← lenLow_of_highBit_eq_false hd] at hL
  subst hL
  refine ⟨fun hshort => rxByte_lenLo_short hs hd hshort, fun hempty => ?_, fun hlong => rxByte_lenLo_payload hs hd hlong⟩
  have hthree : s.rxLen ||| lenLow d = 3 := BitVec.eq_of_toNat_eq hempty
  rw [exec_rxb, rxByte_lenLo_empty hs hd hempty, hthree]
  rfl

/-! ### Resynchronisation -/

/-- `resync` keeps nothing of the first byte. -/
theorem resync_cons (x : Byte) (buf : List Byte) : resync (x :: buf) = buf.dropWhile fun b => !highBit b := rfl

/-- Settles O28: the bytes dropped after the first are the longest run in front without a high bit. -/
theorem resyncFindsTheNextHighByte : Obligations.ResyncFindsTheNextHighByte := by
  refine ⟨rfl, fun x buf => ⟨buf.takeWhile fun b => !highBit b, ?_, fun b hb => ?_, ?_⟩⟩
  · rw [resync_cons, List.takeWhile_append_dropWhile]
  · have hlow : highBit b = false := by simpa using List.mem_takeWhile_imp (p := fun b => !highBit b) hb
    exact hlow
  · rw [resync_cons]
    cases hrest : buf.dropWhile (fun b => !highBit b) with
    | nil => exact .inl rfl
    | cons h rest =>
      have hhead := List.head_dropWhile_not (p := fun b => !highBit b) (l := buf) (by simp [hrest])
      have hhigh : highBit h = true := by simpa [hrest] using hhead
      exact .inr ⟨h, rest, rfl, hhigh⟩

end Sys2Proof.FrameDecoder
end

section
/-! PROOFS. The frame encoder (spec/41_frame_encoder.md R88, R90): `TXF` has two arms, told apart by the payload's length
alone, and neither writes anything but what crosses the port. -/

namespace Sys2Proof.FrameEncoder

open Sys2Proof Sys2Proof.Machine

theorem exec_txf (id : MsgId) (payload : List Byte) (s : State) : exec (.txf id payload) s = execTxf id payload s := rfl

/-- R88: the three header bytes, which count themselves in the length, then the payload. -/
theorem encodeFrame_eq (id : MsgId) (payload : List Byte) :
    encodeFrame id payload =
      [0x80 ||| id.setWidth 8, llhSeven (payload.length + 3), lllSeven (payload.length + 3)] ++ payload := rfl

section Arms

variable {payload : List Byte}

/-- R88: a payload whose frame length is a 14-bit number is encoded. -/
theorem execTxf_of_fits (hfit : payload.length ≤ Config.maxPayload) (id : MsgId) (s : State) :
    execTxf id payload s = .next (s.answer (.bytes (encodeFrame id payload))) :=
  if_neg (Nat.not_lt.2 hfit)

/-- R90: a longer one is refused, with its length as the reason. -/
theorem execTxf_of_tooLong (hlong : Config.maxPayload < payload.length) (id : MsgId) (s : State) :
    execTxf id payload s = .next (s.raise (.encodeRefused payload.length) .stay) :=
  if_pos hlong

end Arms

/-- Settles O31: the two clauses are the two arms of `TXF`, and both leave every register, the buffer and the port alone. -/
theorem txfAnswersTheFrameOrRefuses : Obligations.TxfAnswersTheFrameOrRefuses := by
  intro id payload s
  refine ⟨fun hfit => ?_, fun hlong => ?_⟩
  · calc exec (.txf id payload) s
        _ = execTxf id payload s := exec_txf id payload s
        _ = .next (s.answer (.bytes (encodeFrame id payload))) := execTxf_of_fits hfit id s
        _ = _ := by rw [encodeFrame_eq]; rfl
  · calc exec (.txf id payload) s
        _ = execTxf id payload s := exec_txf id payload s
        _ = .next (s.raise (.encodeRefused payload.length) .stay) := execTxf_of_tooLong hlong id s
        _ = _ := by rw [Encoding.raise_stay]

end Sys2Proof.FrameEncoder
end

section
/-! PROOFS. The checksum generator (spec/42_checksum.md R95 to R100): the arithmetic of the accumulator said once on numbers,
one equation for each arm of the three operations, and the statements assembled from them. -/

namespace Sys2Proof.Checksum

open Sys2Proof Sys2Proof.Machine

/-! ### The arithmetic modulo 128 -/

/-- A number reduced modulo `CS_MOD` fits the accumulator (R6): holding it in 7 bits loses nothing. -/
theorem ofNat_mod_csMod_toNat (n : Nat) : (BitVec.ofNat 7 (n % Config.csMod)).toNat = n % 128 := by
  rw [BitVec.toNat_ofNat, Config.csMod]
  exact Nat.mod_mod n 128

/-- R97. -/
theorem checksumStep_toNat (acc : Sum7) (d : Byte) : (checksumStep acc d).toNat = (acc.toNat + d.toNat) % 128 :=
  ofNat_mod_csMod_toNat _

/-- R95. -/
theorem checksum_toNat (bs : List Byte) : (checksum bs).toNat = byteSum bs % 128 :=
  ofNat_mod_csMod_toNat _

/-- R98: the high bit of an added byte weighs 128, which is nothing modulo 128. -/
theorem add_low7_mod (a : Nat) (d : Byte) : (a + (low7 d).toNat) % 128 = (a + d.toNat) % 128 := by
  rw [low7, BitVec.toNat_setWidth]
  exact Nat.add_mod_mod a d.toNat 128

/-! ### The checksum as a byte -/

/-- Widening a checksum to a byte keeps its number (R99). -/
theorem zext8_toNat (v : Sum7) : (zext8 v).toNat = v.toNat :=
  BitVec.toNat_setWidth_of_le (by decide)

/-- A widened checksum is 7-bit-clean (R99). -/
theorem highBit_zext8 (v : Sum7) : highBit (zext8 v) = false := by
  rw [highBit_eq_decide, decide_eq_false_iff_not, Nat.not_le, zext8_toNat]
  exact v.isLt

/-- R100: the comparison is equality of numbers, so it looks at all 8 bits of the received byte. -/
theorem checksumMatches_iff (acc : Sum7) (d : Byte) : checksumMatches acc d = true ↔ d.toNat = acc.toNat := by
  rw [checksumMatches, beq_iff_eq, ← zext8_toNat acc, BitVec.toNat_inj]

/-- A byte with its high bit set is above every checksum. -/
theorem toNat_ne_of_highBit {d : Byte} (hd : highBit d = true) (acc : Sum7) : d.toNat ≠ acc.toNat := by
  rw [highBit_eq_decide, decide_eq_true_iff] at hd
  exact (acc.isLt.trans_le hd).ne'

/-! ### One equation for each arm of the operations -/

theorem exec_csclr (s : State) : exec .csclr s = execCsclr s := rfl

theorem exec_csadd (d : Byte) (s : State) : exec (.csadd d) s = execCsadd d s := rfl

theorem exec_cschk (d : Byte) (s : State) : exec (.cschk d) s = execCschk d s := rfl

/-- R96: of the registers, only the accumulator is written. -/
theorem execCsclr_eq (s : State) :
    execCsclr s = .next { s with csAcc := 0, out := [.nothing], hostSent := [] } := rfl

/-- R97: of the registers, only the accumulator is written, and what is answered is what it holds afterwards. -/
theorem execCsadd_eq (d : Byte) (s : State) :
    execCsadd d s =
      .next { s with csAcc := checksumStep s.csAcc d, out := [.sum (checksumStep s.csAcc d)], hostSent := [] } := rfl

section Check

variable {s : State} {d : Byte}

/-- R100, the byte is the checksum. -/
theorem execCschk_of_eq (h : d.toNat = s.csAcc.toNat) : execCschk d s = .next (s.answer .csOk) :=
  if_pos ((checksumMatches_iff s.csAcc d).2 h)

/-- R100, it is not: an error that leaves the parser where it is (R188). -/
theorem execCschk_of_ne (h : d.toNat ≠ s.csAcc.toNat) :
    execCschk d s = .next (s.raise (.checksumMismatch s.csAcc d) .stay) :=
  if_neg (mt (checksumMatches_iff s.csAcc d).1 h)

end Check

/-! ### The statements about the checksum -/

/-- Settles O33. -/
theorem csclrZeroesTheAccumulator : Obligations.CsclrZeroesTheAccumulator := by
  intro s
  rw [exec_csclr, execCsclr_eq]

/-- Settles O34: the value is the step form's, and its two readings differ by the weight of the high bit of `d`. -/
theorem csaddAddsModulo128 : Obligations.CsaddAddsModulo128 := by
  intro s d
  have hsum : (checksumStep s.csAcc d).toNat = (s.csAcc.toNat + d.toNat) % 128 := checksumStep_toNat s.csAcc d
  have hlow : (checksumStep s.csAcc d).toNat = (s.csAcc.toNat + (low7 d).toNat) % 128 :=
    hsum.trans (add_low7_mod s.csAcc.toNat d).symm
  refine ⟨checksumStep s.csAcc d, hsum, hlow, ?_⟩
  rw [exec_csadd, execCsadd_eq]

/-- Settles O35: the first two clauses are the two arms of `CSCHK`; the third says which bytes can never reach the first. -/
theorem cschkComparesAllEightBits : Obligations.CschkComparesAllEightBits := by
  intro s d
  refine ⟨fun heq => ?_, fun hne => ?_, fun hhigh => toNat_ne_of_highBit hhigh s.csAcc⟩
  · rw [exec_cschk, execCschk_of_eq heq, State.answer]
  · rw [exec_cschk, execCschk_of_ne hne, Encoding.raise_stay]

/-- Settles O36. -/
theorem checksumIsTheSumModulo128 : Obligations.ChecksumIsTheSumModulo128 :=
  fun bs => ⟨checksum_toNat bs, highBit_zext8 (checksum bs)⟩

end Sys2Proof.Checksum
end

section
/-! PROOFS. The dispatcher (spec/43_dispatcher.md R107 to R123): what the table finds for an id, what a size rule accepts and
reports, one equation for a frame of a known id, and the statements as readings of that equation. -/

namespace Sys2Proof.Dispatcher

open Sys2Proof Sys2Proof.Machine

/-! ### The table -/

/-- No two rows share an id (R108), so every row is found under its own. -/
theorem lookup_id_of_mem : ∀ row ∈ dispatchTable, lookup row.id = some row := by decide

theorem lookup_eq_some_iff (id : MsgId) (row : TableRow) :
    lookup id = some row ↔ row ∈ dispatchTable ∧ row.id = id := by
  constructor
  · intro h
    have hid : (row.id == id) = true := List.find?_some (p := fun r : TableRow => r.id == id) h
    exact ⟨List.mem_of_find?_eq_some h, eq_of_beq hid⟩
  · rintro ⟨hmem, rfl⟩
    exact lookup_id_of_mem row hmem

theorem lookup_eq_none_iff (id : MsgId) : lookup id = none ↔ id ∉ dispatchTable.map TableRow.id := by
  simp [lookup, List.find?_eq_none]

/-- BWTIME frames have the one size that holds seven payload bytes (R110). -/
theorem rule_of_bwTime : ∀ row ∈ dispatchTable, row.kind = .bwTime → row.rule = .fixed 10 := by decide

/-! ### The size rules -/

section Sizes

variable {n lo hi len : Nat}

theorem sizeOk_fixed_iff : sizeOk (.fixed n) len = true ↔ len = n := beq_iff_eq

theorem sizeOk_range_iff : sizeOk (.range lo hi) len = true ↔ lo ≤ len ∧ len ≤ hi := by
  simp only [sizeOk, Bool.and_eq_true, decide_eq_true_iff]

/-- A length is reported with bounds `lo` and `hi` exactly when it lies outside a size or a range of these bounds (R122). -/
theorem rejected_with_bounds_iff (rule : SizeRule) :
    (¬ sizeOk rule len = true ∧ sizeBounds rule = (lo, hi)) ↔
      (len < lo ∨ hi < len) ∧ ((rule = .fixed lo ∧ hi = lo) ∨ rule = .range lo hi) := by
  cases rule with
  | fixed m =>
    simp only [sizeOk_fixed_iff, sizeBounds, Prod.mk.injEq, SizeRule.fixed.injEq, reduceCtorEq, or_false]
    omega
  | range a b =>
    simp only [sizeOk_range_iff, sizeBounds, Prod.mk.injEq, SizeRule.range.injEq, reduceCtorEq, false_and, false_or]
    omega
  | any => simp [sizeOk]

end Sizes

/-! ### The seven bytes of a BWTIME payload -/

theorem lowNibble_eq_marker_iff : ∀ b : Byte, b &&& 0x0f = 0x0a ↔ b.setWidth 4 = 0xA := by decide

/-- R131. -/
theorem isAck_iff (b0 b3 : Byte) : isAck b0 b3 = true ↔ b0.setWidth 4 = 0xA ∨ b3.setWidth 4 = 0xA := by
  simp only [isAck, Bool.or_eq_true, beq_iff_eq, lowNibble_eq_marker_iff]

theorem clockDecode_of_isAck {p : BwPayload} (h : isAck p.b0 p.b3 = true) : clockDecode p = .clockAck (ackUnpack p) :=
  if_pos h

theorem clockDecode_of_not_isAck {p : BwPayload} (h : ¬ isAck p.b0 p.b3 = true) : clockDecode p = .clockTime p :=
  if_neg h

/-- R130: either reading of seven bytes is a message. -/
theorem resultError_clockDecode (p : BwPayload) : resultError (clockDecode p) = none := by
  by_cases h : isAck p.b0 p.b3 = true
  · rw [clockDecode_of_isAck h]; rfl
  · rw [clockDecode_of_not_isAck h]; rfl

theorem exists_bwOfBytes {bs : List Byte} (h : bs.length = 7) : ∃ p, bwOfBytes bs = some p :=
  match bs, h with
  | [b0, b1, b2, b3, b4, b5, b6], _ => ⟨⟨b0, b1, b2, b3, b4, b5, b6⟩, rfl⟩

/-! ### Accepted frames -/

section Accepted

variable {kind : MessageKind} {f : Frame}

theorem acceptedMessage_of_ne_bwTime (h : kind ≠ .bwTime) : acceptedMessage kind f = .message kind f.payload :=
  if_neg h

theorem acceptedMessage_bwTime {p : BwPayload} (h : bwOfBytes f.payload = some p) :
    acceptedMessage .bwTime f = clockDecode p := by
  simp only [acceptedMessage, if_true, h]

/-- A frame past the lookup is never answered `UnknownMessage`, whatever its payload. -/
theorem resultError_acceptedMessage_ne_unknownMessage :
    resultError (acceptedMessage kind f) ≠ some .unknownMessage := by
  by_cases hk : kind = .bwTime
  · subst hk
    cases hbw : bwOfBytes f.payload with
    | some p => rw [acceptedMessage_bwTime hbw, resultError_clockDecode]; exact nofun
    | none => simp only [acceptedMessage, if_true, hbw, resultError]; exact nofun
  · rw [acceptedMessage_of_ne_bwTime hk]; exact nofun

/-- A frame of the right size is no error: a BWTIME frame of length 10 has its seven bytes. -/
theorem resultError_acceptedMessage {row : TableRow} (hmem : row ∈ dispatchTable)
    (hfit : f.payload.length + 3 = f.length.toNat) (hsize : sizeOk row.rule f.length.toNat = true) :
    resultError (acceptedMessage row.kind f) = none := by
  by_cases hk : row.kind = .bwTime
  · rw [rule_of_bwTime row hmem hk, sizeOk_fixed_iff] at hsize
    obtain ⟨p, hp⟩ := exists_bwOfBytes (bs := f.payload) (by omega)
    rw [hk, acceptedMessage_bwTime hp, resultError_clockDecode]
  · rw [acceptedMessage_of_ne_bwTime hk]; rfl

end Accepted

/-! ### One equation for an id of the table, one for every other -/

section Dispatch

variable {f : Frame} {id : MsgId} {kind : MessageKind} {L : Len} {payload : List Byte}

/-- R121. -/
theorem dispatch_of_lookup_none (h : lookup f.id = none) : dispatch f = .unknownMessage f.id := by
  simp only [dispatch, h]

/-- R107 from the size check on. -/
theorem dispatch_of_lookup_some {row : TableRow} (h : lookup f.id = some row) :
    dispatch f = if sizeOk row.rule f.length.toNat then acceptedMessage row.kind f
      else .lengthMismatch f.id (sizeBounds row.rule).1 (sizeBounds row.rule).2 f.length.toNat := by
  simp only [dispatch, h]

/-- The same for a row written out, as the table lists it. -/
theorem dispatch_of_mem {rule : SizeRule} (hmem : (⟨id, kind, rule⟩ : TableRow) ∈ dispatchTable) :
    dispatch ⟨id, L, payload⟩ = if sizeOk rule L.toNat then acceptedMessage kind ⟨id, L, payload⟩
      else .lengthMismatch id (sizeBounds rule).1 (sizeBounds rule).2 L.toNat :=
  dispatch_of_lookup_some (f := ⟨id, L, payload⟩) ((lookup_eq_some_iff id ⟨id, kind, rule⟩).2 ⟨hmem, rfl⟩)

theorem dispatch_fixed {n : Nat} (hmem : (⟨id, kind, .fixed n⟩ : TableRow) ∈ dispatchTable) (hkind : kind ≠ .bwTime) :
    dispatch ⟨id, L, payload⟩ = if L.toNat = n then .message kind payload else .lengthMismatch id n n L.toNat := by
  simp only [dispatch_of_mem hmem, sizeOk_fixed_iff, acceptedMessage_of_ne_bwTime hkind, sizeBounds]

theorem dispatch_range {lo hi : Nat} (hmem : (⟨id, kind, .range lo hi⟩ : TableRow) ∈ dispatchTable)
    (hkind : kind ≠ .bwTime) :
    dispatch ⟨id, L, payload⟩ =
      if lo ≤ L.toNat ∧ L.toNat ≤ hi then .message kind payload else .lengthMismatch id lo hi L.toNat := by
  simp only [dispatch_of_mem hmem, sizeOk_range_iff, acceptedMessage_of_ne_bwTime hkind, sizeBounds]

theorem dispatch_any (hmem : (⟨id, kind, .any⟩ : TableRow) ∈ dispatchTable) (hkind : kind ≠ .bwTime) :
    dispatch ⟨id, L, payload⟩ = .message kind payload := by
  rw [dispatch_of_mem hmem, sizeOk, if_pos rfl, acceptedMessage_of_ne_bwTime hkind]

theorem bwTime_mem : (⟨0x0d, .bwTime, .fixed 10⟩ : TableRow) ∈ dispatchTable := by decide

/-- R110, the one accepted length: the markers decide between the two readings. -/
theorem dispatch_bwTime (b0 b1 b2 b3 b4 b5 b6 : Byte) :
    dispatch ⟨0x0d, 10, [b0, b1, b2, b3, b4, b5, b6]⟩ = clockDecode ⟨b0, b1, b2, b3, b4, b5, b6⟩ := by
  have hsize : sizeOk (.fixed 10) (10 : Len).toNat = true := rfl
  rw [dispatch_of_mem bwTime_mem, if_pos hsize, acceptedMessage_bwTime rfl]

theorem dispatch_eq_unknownMessage_iff : dispatch f = .unknownMessage f.id ↔ lookup f.id = none := by
  refine ⟨fun h => ?_, dispatch_of_lookup_none⟩
  cases hrow : lookup f.id with
  | none => rfl
  | some row =>
    rw [dispatch_of_lookup_some hrow] at h
    split_ifs at h
    have hno := resultError_acceptedMessage_ne_unknownMessage (kind := row.kind) (f := f)
    rw [h] at hno
    exact absurd rfl hno

/-- For a frame whose payload fits, `LengthMismatch` comes from the size check of the frame's own row alone. -/
theorem dispatch_eq_lengthMismatch_iff {lo hi actual : Nat} (hfit : f.payload.length + 3 = f.length.toNat) :
    dispatch f = .lengthMismatch id lo hi actual ↔
      id = f.id ∧ actual = f.length.toNat ∧
        ∃ row, lookup f.id = some row ∧ ¬ sizeOk row.rule f.length.toNat = true ∧ sizeBounds row.rule = (lo, hi) := by
  cases hrow : lookup f.id with
  | none => simp [dispatch_of_lookup_none hrow]
  | some row =>
    obtain ⟨hmem, _⟩ := (lookup_eq_some_iff f.id row).1 hrow
    rw [dispatch_of_lookup_some hrow]
    by_cases hsize : sizeOk row.rule f.length.toNat = true
    · have hmsg := resultError_acceptedMessage hmem hfit hsize
      have hne : acceptedMessage row.kind f ≠ .lengthMismatch id lo hi actual := fun h => by
        rw [h] at hmsg
        exact absurd hmsg nofun
      simp [hsize, hne]
    · rw [if_neg hsize]
      constructor
      · rintro ⟨⟩
        exact ⟨rfl, rfl, row, rfl, hsize, rfl⟩
      · rintro ⟨rfl, rfl, _, ⟨⟩, -, hbounds⟩
        rw [hbounds]

end Dispatch

/-! ### The statements about the dispatcher -/

/-- Settles O46: what the size check reports, read back as the row's size or range. -/
theorem lengthMismatchReportsTheDiscrepancy : Obligations.LengthMismatchReportsTheDiscrepancy := by
  intro f id lo hi actual hfit
  rw [dispatch_eq_lengthMismatch_iff hfit]
  simp only [rejected_with_bounds_iff, lookup_eq_some_iff]
  constructor
  · rintro ⟨hid, rfl, row, ⟨hmem, hrow⟩, hout, hrule⟩
    exact ⟨hid, rfl, hout, row, hmem, hrow, hrule⟩
  · rintro ⟨hid, rfl, hout, row, hmem, hrow, hrule⟩
    exact ⟨hid, rfl, row, ⟨hmem, hrow⟩, hout, hrule⟩

/-- Settles O41: the seven kinds are rows of the table, none of them BWTIME. -/
theorem fixedSizeMessages : Obligations.FixedSizeMessages := by
  refine ⟨fun row hrow L payload => ?_, fun _ _ => ⟨rfl, rfl⟩, rfl⟩
  obtain ⟨hmem, hkind⟩ : (⟨row.1, row.2.1, .fixed row.2.2⟩ : TableRow) ∈ dispatchTable ∧ row.2.1 ≠ .bwTime := by
    revert row
    decide
  exact dispatch_fixed hmem hkind

/-- Settles O42: the three kinds are rows of the table without a size. -/
theorem variableSizeMessages : Obligations.VariableSizeMessages := by
  intro row hrow L payload
  obtain ⟨hmem, hkind⟩ : (⟨row.1, row.2, .any⟩ : TableRow) ∈ dispatchTable ∧ row.2 ≠ .bwTime := by
    revert row
    decide
  exact dispatch_any hmem hkind

/-- Settles O43. -/
theorem batteryStatusRange : Obligations.BatteryStatusRange := by
  have hmem : (⟨0x20, .batteryStatus, .range 7 11⟩ : TableRow) ∈ dispatchTable := by decide
  exact fun _ _ => dispatch_range hmem (by decide)

/-- Settles O44: at length 10 the markers decide; at any other the size check answers before they are looked at (R123). -/
theorem bwtimeFrames : Obligations.BwtimeFrames := by
  refine ⟨fun b0 b1 b2 b3 b4 b5 b6 => ⟨fun hack => ?_, fun htime => ?_⟩, fun L payload hlen => ?_⟩
  · rw [dispatch_bwTime, clockDecode_of_isAck ((isAck_iff b0 b3).2 hack)]
  · rw [dispatch_bwTime, clockDecode_of_not_isAck (mt (isAck_iff b0 b3).1 htime)]
  · rw [dispatch_of_mem bwTime_mem, if_neg (mt sizeOk_fixed_iff.1 hlen), sizeBounds]

/-- Settles O45: the twelve ids are those of the table. -/
theorem unknownIds : Obligations.UnknownIds := by
  intro id L payload
  have hids : dispatchTable.map TableRow.id =
      [0x06, 0x0d, 0x0e, 0x0f, 0x10, 0x11, 0x12, 0x13, 0x14, 0x15, 0x20, 0x22] := rfl
  rw [← hids, ← lookup_eq_none_iff]
  exact dispatch_eq_unknownMessage_iff (f := ⟨id, L, payload⟩)

end Sys2Proof.Dispatcher
end

section
/-! PROOFS. The clock unpacker (spec/44_clock_unpacker.md R131 to R137): which bits of the seven bytes a gathered
acknowledgement byte takes, the four arms of the status, and the fields of an unpacked acknowledgement as readings of its own
bytes. -/

namespace Sys2Proof.ClockUnpacker

open Sys2Proof Sys2Proof.Machine

theorem exec_bwcls (p : BwPayload) (s : State) : exec (.bwcls p) s = execBwcls p s := rfl

theorem exec_acku (p : BwPayload) (s : State) :
    exec (.acku p) s = .next { s with out := [.clockAck (ackUnpack p)], hostSent := [] } := rfl

/-! ### The class of the seven bytes -/

section Class

variable {p : BwPayload}

/-- R131, a marker stands. -/
theorem execBwcls_of_isAck (h : isAck p.b0 p.b3 = true) (s : State) : execBwcls p s = .next (s.answer .isAck) := by
  rw [execBwcls, if_pos h]

/-- R131, no marker stands. -/
theorem execBwcls_of_not_isAck (h : ¬ isAck p.b0 p.b3 = true) (s : State) :
    execBwcls p s = .next (s.answer .isTime) := by
  rw [execBwcls, if_neg h]

end Class

/-- Settles O47: the markers are the two low nibbles, so the two clauses are the two arms of `BWCLS`. -/
theorem bwclsLooksAtTwoNibbles : Obligations.BwclsLooksAtTwoNibbles := by
  refine fun p s => ⟨fun hack => ?_, fun htime => ?_⟩
  · calc exec (.bwcls p) s
        _ = execBwcls p s := exec_bwcls p s
        _ = .next (s.answer .isAck) := execBwcls_of_isAck ((Dispatcher.isAck_iff p.b0 p.b3).2 hack) s
        _ = _ := rfl
  · calc exec (.bwcls p) s
        _ = execBwcls p s := exec_bwcls p s
        _ = .next (s.answer .isTime) := execBwcls_of_not_isAck (mt (Dispatcher.isAck_iff p.b0 p.b3).1 htime) s
        _ = _ := rfl

/-! ### One gathered byte

The two masks of R133 do not overlap: `0x7f` keeps the low seven bits of the first byte, `0x80` the one bit of the shifted
second byte that lands in position 7. -/

theorem testBit_lowMask (i : Nat) : (0x7f : Nat).testBit i = decide (i < 7) := Nat.testBit_two_pow_sub_one 7 i

theorem testBit_topMask (i : Nat) : (0x80 : Nat).testBit i = decide (7 = i) := Nat.testBit_two_pow (n := 7)

/-- R133, bit by bit: a bit comes from the first byte where the low mask stands, from the shifted second byte where the top
mask stands. -/
theorem gatherAck_getElem (x y : Byte) (k : Nat) {i : Nat} (hi : i < 8) :
    (gatherAck x y k)[i] =
      (x.getLsbD i && decide (i < 7) || (decide (k ≤ i) && y.getLsbD (i - k)) && decide (7 = i)) := by
  simp only [gatherAck, BitVec.getElem_eq_testBit_toNat, BitVec.toNat_ofNat, Nat.testBit_mod_two_pow, hi, decide_true,
    Bool.true_and, Nat.testBit_or, Nat.testBit_and, Nat.testBit_shiftLeft, testBit_lowMask, testBit_topMask,
    BitVec.testBit_toNat, ge_iff_le]

/-- R133, bits 6 to 0. -/
theorem gatherAck_low7 (x y : Byte) (k : Nat) : (gatherAck x y k).setWidth 7 = x.setWidth 7 := by
  ext i hi
  have hi8 : i < 8 := by omega
  have hne : 7 ≠ i := by omega
  rw [BitVec.getElem_setWidth, BitVec.getElem_setWidth, BitVec.getLsbD_eq_getElem hi8, gatherAck_getElem]
  simp [hi, hne]

/-- R133, bit 7: the bit of the second byte that a shift by `k` brings there. -/
theorem gatherAck_top (x y : Byte) {k : Nat} (hk : k ≤ 7) : (gatherAck x y k)[7] = y.getLsbD (7 - k) := by
  rw [gatherAck_getElem]
  simp [hk]

/-! ### The fields of an unpacked acknowledgement

The last four are read from the first two bytes as rebuilt, not from the payload. -/

section Fields

variable (p : BwPayload)

theorem ackUnpack_ack0 : (ackUnpack p).ack0 = gatherAck p.b1 p.b3 3 := rfl
theorem ackUnpack_ack1 : (ackUnpack p).ack1 = gatherAck p.b2 p.b3 2 := rfl
theorem ackUnpack_ack2 : (ackUnpack p).ack2 = gatherAck p.b4 p.b0 3 := rfl
theorem ackUnpack_ack3 : (ackUnpack p).ack3 = gatherAck p.b5 p.b0 2 := rfl
theorem ackUnpack_status : (ackUnpack p).status = ackStatus (ackUnpack p).ack0 := rfl
theorem ackUnpack_auto : (ackUnpack p).auto = (ackUnpack p).ack1[7] := rfl
theorem ackUnpack_sub : (ackUnpack p).sub = (ackUnpack p).ack1.setWidth 7 := rfl
theorem ackUnpack_kind : (ackUnpack p).kind = ackSubkind (ackUnpack p).sub := rfl

end Fields

/-- Settles O48: each rebuilt byte is gathered, its top bit from bit 4 (shift 3) or bit 5 (shift 2) of a marker byte. -/
theorem ackuRebuildsTheFourBytes : Obligations.AckuRebuildsTheFourBytes := by
  intro p s
  refine ⟨ackUnpack p, exec_acku p s, ?_, ?_, ?_, ?_, ackUnpack_status p, ackUnpack_auto p, ackUnpack_sub p,
    ackUnpack_kind p⟩
  · rw [ackUnpack_ack0]
    exact ⟨gatherAck_low7 p.b1 p.b3 3, gatherAck_top p.b1 p.b3 (by decide)⟩
  · rw [ackUnpack_ack1]
    exact ⟨gatherAck_low7 p.b2 p.b3 2, gatherAck_top p.b2 p.b3 (by decide)⟩
  · rw [ackUnpack_ack2]
    exact ⟨gatherAck_low7 p.b4 p.b0 3, gatherAck_top p.b4 p.b0 (by decide)⟩
  · rw [ackUnpack_ack3]
    exact ⟨gatherAck_low7 p.b5 p.b0 2, gatherAck_top p.b5 p.b0 (by decide)⟩

/-! ### The status -/

theorem ackStatus_normal : ackStatus 0x10 = .normal := rfl

theorem ackStatus_rejected : ackStatus 0x40 = .rejected := rfl

section Status

variable {x : Byte}

/-- R135, the third test: neither of the two fixed values has bit 7 set, so the order of the tests does not matter. -/
theorem ackStatus_of_top (h : x[7] = true) : ackStatus x = .errorFlag := by
  have hnormal : x ≠ 0x10 := by rintro rfl; exact absurd h (by decide)
  have hrejected : x ≠ 0x40 := by rintro rfl; exact absurd h (by decide)
  have hset : highBit x = true := h
  rw [ackStatus, if_neg hnormal, if_neg hrejected, if_pos hset]

/-- R135, what no test catches. -/
theorem ackStatus_of_rest (hnormal : x ≠ 0x10) (hrejected : x ≠ 0x40) (h : x[7] = false) : ackStatus x = .other := by
  have hclear : ¬ highBit x = true := by rw [highBit, h]; decide
  rw [ackStatus, if_neg hnormal, if_neg hrejected, if_neg hclear]

end Status

theorem ackError_iff (status : AckStatus) : ackError status = true ↔ status = .rejected ∨ status = .errorFlag := by
  rw [ackError, Bool.or_eq_true, decide_eq_true_iff, decide_eq_true_iff]

/-- Settles O49: the four arms, in the order of R135; in each, the byte and its status are known. -/
theorem ackStatusReadsAckZero : Obligations.AckStatusReadsAckZero := by
  intro x
  rw [ackError_iff]
  by_cases hnormal : x = 0x10
  · subst hnormal
    rw [ackStatus_normal]
    decide
  by_cases hrejected : x = 0x40
  · subst hrejected
    rw [ackStatus_rejected]
    decide
  cases htop : x[7] with
  | true => simpa [ackStatus_of_top htop] using And.intro hnormal hrejected
  | false => simpa [ackStatus_of_rest hnormal hrejected htop] using And.intro hnormal ⟨hrejected, hnormal, hrejected⟩

/-! ### The meaning of a clock's own acknowledgement -/

/-- R137, the one fixed entry. -/
theorem ackSubkind_ready : ackSubkind 0x01 = .ready := if_pos rfl

/-- Settles O50: every field is read from `ack0` and `ack1`, so the two bytes fix them all. -/
theorem readyUnsolicitedAck : Obligations.ReadyUnsolicitedAck := by
  refine ⟨ackSubkind_ready, fun p h0 h1 => ?_⟩
  have hstatus : (ackUnpack p).status = .normal := by rw [ackUnpack_status, h0, ackStatus_normal]
  have hsub : (ackUnpack p).sub = 0x01 := by rw [ackUnpack_sub, h1]; rfl
  have hkind : (ackUnpack p).kind = .ready := by rw [ackUnpack_kind, hsub, ackSubkind_ready]
  have hauto : (ackUnpack p).auto = true := by simp [ackUnpack_auto, h1]
  refine ⟨hstatus, ?_, hauto, hsub, hkind⟩
  rw [hstatus]
  rfl

end Sys2Proof.ClockUnpacker
end

section
/-! PROOFS. The errors of the receive path (spec/60_exceptions.md R183): the table of the four conditions of `FrameInvalid`,
each with its cause, the count of bytes given up and where it leaves the parser. A byte is answered `FrameInvalid` exactly
when it stands under a row of the table. -/

namespace Sys2Proof.Exceptions

open Sys2Proof Sys2Proof.Machine

/-- The table of R183, one constructor per row: under the row's condition on the state and the byte, the cause, the count of
bytes given up and the resynchronisation. -/
inductive InvalidRow (s : State) (d : Byte) : Cause → Nat → Resync → Prop where
  | notStart : s.rxState = .idle → highBit d = false → InvalidRow s d .notStart 1 .hunt
  | lenHiNotClean : s.rxState = .lenHi → highBit d = true → InvalidRow s d .lenNotClean 1 (.restart d)
  | lenLoNotClean : s.rxState = .lenLo → highBit d = true → InvalidRow s d .lenNotClean 2 (.restart d)
  | lenRange : s.rxState = .lenLo → highBit d = false → (s.rxLen ||| lenLow d).toNat < 3 →
      InvalidRow s d .lenRange 3 .hunt

section Table

variable {s t : State} {d : Byte} {c : Cause} {k : Nat} {r : Resync}

/-- R183, from the table to the model: a byte under a row raises the row's error. -/
theorem rxByte_of_invalidRow (hrow : InvalidRow s d c k r) :
    rxByte d s = .next (s.raise (.frameInvalid c k) r) := by
  cases hrow with
  | notStart hs hd => exact FrameDecoder.rxByte_idle_low hs hd
  | lenHiNotClean hs hd => exact FrameDecoder.rxByte_lenHi_notClean hs hd
  | lenLoNotClean hs hd => exact FrameDecoder.rxByte_lenLo_notClean hs hd
  | lenRange hs hd hL => exact FrameDecoder.rxByte_lenLo_short hs hd hL

/-- R183, from the model to the table: of the rules of `RXB`, the four that answer `FrameInvalid` are its rows; every other
rule answers something else. -/
theorem exists_invalidRow (h : rxByte d s = .next t) (hout : t.out = [.frameInvalid c k]) :
    ∃ r, InvalidRow s d c k r := by
  obtain ⟨-, -, rfl⟩ | ⟨hs, hd, rfl⟩ | ⟨-, -, rfl⟩ | ⟨-, -, rfl⟩ | ⟨hs, hd, rfl⟩ | ⟨hs, hd, rfl⟩ | ⟨hs, hd, hL, rfl⟩ |
    ⟨-, -, -, rfl⟩ | ⟨-, -, -, rfl⟩ | ⟨-, -, -, p, -, rfl⟩ | ⟨-, -, -, rfl⟩ := rxByte_cases d s t h <;> cases hout
  · exact ⟨.hunt, .notStart hs hd⟩
  · exact ⟨.restart d, .lenHiNotClean hs hd⟩
  · exact ⟨.restart d, .lenLoNotClean hs hd⟩
  · exact ⟨.hunt, .lenRange hs hd hL⟩

/-- Under a row of R183 the state after is the one the row raises, and no other. -/
theorem eq_raise_of_invalidRow (h : rxByte d s = .next t) (hrow : InvalidRow s d c k r) :
    t = s.raise (.frameInvalid c k) r :=
  Host.Outcome.next.inj (h.symm.trans (rxByte_of_invalidRow hrow))

theorem out_eq_frameInvalid_iff (h : rxByte d s = .next t) :
    t.out = [.frameInvalid c k] ↔ ∃ r, InvalidRow s d c k r := by
  refine ⟨exists_invalidRow h, fun ⟨r, hrow⟩ => ?_⟩
  rw [eq_raise_of_invalidRow h hrow, State.raise_out]

/-- The conditions of R183 in the words of the table: a clean length byte is or-ed into the length as it stands. -/
theorem exists_invalidRow_iff :
    (∃ r, InvalidRow s d c k r) ↔
      (c = .notStart ∧ k = 1 ∧ s.rxState = .idle ∧ d[7] = false) ∨
      (c = .lenNotClean ∧ k = 1 ∧ s.rxState = .lenHi ∧ d[7] = true) ∨
      (c = .lenNotClean ∧ k = 2 ∧ s.rxState = .lenLo ∧ d[7] = true) ∨
      (c = .lenRange ∧ k = 3 ∧ s.rxState = .lenLo ∧ d[7] = false ∧ (s.rxLen ||| d.setWidth 14).toNat < 3) := by
  constructor
  · rintro ⟨r, (⟨hs, hd⟩ | ⟨hs, hd⟩ | ⟨hs, hd⟩ | ⟨hs, hd, hL⟩)⟩
    · exact .inl ⟨rfl, rfl, hs, hd⟩
    · exact .inr (.inl ⟨rfl, rfl, hs, hd⟩)
    · exact .inr (.inr (.inl ⟨rfl, rfl, hs, hd⟩))
    · rw [FrameDecoder.lenLow_of_highBit_eq_false hd] at hL
      exact .inr (.inr (.inr ⟨rfl, rfl, hs, hd, hL⟩))
  · rintro (⟨rfl, rfl, hs, hd⟩ | ⟨rfl, rfl, hs, hd⟩ | ⟨rfl, rfl, hs, hd⟩ | ⟨rfl, rfl, hs, hd, hL⟩)
    · exact ⟨.hunt, .notStart hs hd⟩
    · exact ⟨.restart d, .lenHiNotClean hs hd⟩
    · exact ⟨.restart d, .lenLoNotClean hs hd⟩
    · rw [← FrameDecoder.lenLow_of_highBit_eq_false hd] at hL
      exact ⟨.hunt, .lenRange hs hd hL⟩

/-- R183, the column of the state after: only a length byte that is not clean starts a frame of its own. -/
theorem resync_of_invalidRow (hrow : InvalidRow s d c k r) :
    r = if c = .lenNotClean then .restart d else .hunt := by
  cases hrow <;> rfl

end Table

/-- Settles O20: the answer is `FrameInvalid` exactly under a row of the table, and the state after is the one that the row's
resynchronisation leaves. -/
theorem frameInvalidHasFourCauses : Obligations.FrameInvalidHasFourCauses := by
  refine ⟨⟨rfl, rfl, rfl⟩, fun s t d c k h => ⟨?_, fun hout => ?_⟩⟩
  · exact (out_eq_frameInvalid_iff h).trans exists_invalidRow_iff
  · obtain ⟨r, hrow⟩ := exists_invalidRow h hout
    obtain rfl := eq_raise_of_invalidRow h hrow
    have hr := resync_of_invalidRow hrow
    refine ⟨fun hc => ?_, fun hc => ?_⟩
    · obtain rfl : r = .restart d := hr.trans (if_pos hc)
      exact ⟨rfl, rfl, rfl⟩
    · obtain rfl : r = .hunt := hr.trans (if_neg hc)
      exact ⟨rfl, rfl⟩

end Sys2Proof.Exceptions
end

section
/-! PROOFS. Reset (spec/70_reset_and_hazards.md R210): the effect of `RST` on the registers as one function of the state, which
is idempotent and has the state after power-on as a fixed point. -/

namespace Sys2Proof.Reset

open Sys2Proof Sys2Proof.Machine

/-! ### What `RST` writes -/

/-- The five registers that `RST` writes, at the values of R28. The buffer and what crosses the port are not written. -/
def resetRegs (s : State) : State :=
  { s with rxState := .idle, rxId := 0, rxLen := 0, rxCnt := 0, csAcc := 0 }

theorem resetRegs_resetRegs (s : State) : resetRegs (resetRegs s) = resetRegs s := rfl

/-- Answering touches no register, so it does not matter whether it is done before the registers are reset or after. -/
theorem resetRegs_answer (s : State) (o : Output) : resetRegs (s.answer o) = (resetRegs s).answer o := rfl

/-- An answer replaces the answer of the step before (R38). -/
theorem answer_answer (s : State) (o o' : Output) : (s.answer o).answer o' = s.answer o' := rfl

/-- The states that `RST` finds already reset are those with the five values of R28. -/
theorem resetRegs_eq_self_iff (s : State) :
    resetRegs s = s ↔ s.rxState = .idle ∧ s.rxId = 0 ∧ s.rxLen = 0 ∧ s.rxCnt = 0 ∧ s.csAcc = 0 := by
  constructor
  · intro h
    rw [← h]
    exact ⟨rfl, rfl, rfl, rfl, rfl⟩
  · cases s
    rintro ⟨rfl, rfl, rfl, rfl, rfl⟩
    rfl

/-- Power-on has the same effect as `RST` (R210): there is nothing left for `RST` to write. -/
theorem resetRegs_reset : resetRegs State.reset = State.reset := rfl

/-! ### The operation -/

theorem exec_rst (s : State) : exec .rst s = .next ((resetRegs s).answer .nothing) := rfl

/-- R210, "Idempotent": `RST` leaves the state after a `RST` as it is, its answer included. -/
theorem exec_rst_of_exec_rst {s t : State} (h : exec .rst s = .next t) : exec .rst t = .next t := by
  obtain rfl : (resetRegs s).answer .nothing = t := Host.Outcome.next.inj ((exec_rst s).symm.trans h)
  rw [exec_rst, resetRegs_answer, resetRegs_resetRegs, answer_answer]

/-- Settles O7: the effect is `resetRegs` and the answer; power-on is a fixed point of it. -/
theorem rstGivesTheResetState : Obligations.RstGivesTheResetState := by
  refine ⟨fun s => ?_, fun _ _ => exec_rst_of_exec_rst, (resetRegs_eq_self_iff State.reset).1 resetRegs_reset⟩
  rw [exec_rst, resetRegs, State.answer]

end Sys2Proof.Reset
end

section
/-! PROOFS. The codec (spec/30_encoding.md R45 to R61): what each operand form of the decoder makes of the bytes that the
encoder writes, and which bytes it can have read when it answers. Both directions are then one case per operand form. -/

namespace Sys2Proof.Codec

open Sys2Proof Sys2Proof.Machine

/-! ### A 14-bit number in two port bytes (log 3) -/

theorem portHigh_toNat {n : Nat} (hn : n ≤ Config.maxLen) : (portHigh n).toNat = n / 256 := by
  rw [portHigh, BitVec.toNat_ofNat, Nat.shiftRight_eq_div_pow]
  simp only [Config.maxLen] at hn
  omega

theorem portLow_toNat (n : Nat) : (portLow n).toNat = n % 256 := BitVec.toNat_ofNat n 8

theorem portWord_portHigh_portLow {n : Nat} (hn : n ≤ Config.maxLen) : portWord (portHigh n) (portLow n) = n := by
  rw [portWord, portHigh_toNat hn, portLow_toNat]
  exact Nat.div_add_mod n 256

theorem portHigh_portWord (hi lo : Byte) : portHigh (portWord hi lo) = hi := by
  apply BitVec.eq_of_toNat_eq
  have hhi := hi.isLt
  have hlo := lo.isLt
  rw [portHigh, BitVec.toNat_ofNat, Nat.shiftRight_eq_div_pow, portWord]
  omega

theorem portLow_portWord (hi lo : Byte) : portLow (portWord hi lo) = lo := by
  apply BitVec.eq_of_toNat_eq
  have hlo := lo.isLt
  rw [portLow_toNat, portWord]
  omega

/-- A high byte that the decoder accepts makes a 14-bit number. -/
theorem portWord_le_maxLen {hi : Byte} (hhi : ¬ 64 ≤ hi.toNat) (lo : Byte) : portWord hi lo ≤ Config.maxLen := by
  have hlo := lo.isLt
  rw [portWord, Config.maxLen]
  omega

theorem low7_zext8 : ∀ id : MsgId, low7 (zext8 id) = id := by decide

theorem zext8_low7 : ∀ b : Byte, highBit b = false → zext8 (low7 b) = b := by decide

theorem headerByte_low7 : ∀ b : Byte, highBit b = true → headerByte (low7 b) = b := by decide

/-! ### The two length bytes of a frame (R49, R51, R86, R87) -/

theorem highBit_llhSeven (n : Nat) : highBit (llhSeven n) = false := by
  rw [highBit_eq_decide, decide_eq_false_iff_not, llhSeven_toNat]
  omega

theorem highBit_lllSeven (n : Nat) : highBit (lllSeven n) = false := by
  rw [highBit_eq_decide, decide_eq_false_iff_not, lllSeven_toNat]
  omega

/-- The halves of a length reassemble to it. -/
theorem lenHigh_or_lenLow (L : Len) : lenHigh (llhSeven L.toNat) ||| lenLow (lllSeven L.toNat) = L := by
  apply BitVec.eq_of_toNat_eq
  have hL := L.isLt
  rw [assemble_toNat _ _ (highBit_llhSeven _) (highBit_lllSeven _), llhSeven_toNat, lllSeven_toNat]
  omega

section Halves

variable {w1 w2 : Byte}

/-- A clean first length byte is the high half of the length it begins. -/
theorem llhSeven_assemble (h1 : highBit w1 = false) (h2 : highBit w2 = false) :
    llhSeven (lenHigh w1 ||| lenLow w2).toNat = w1 := by
  apply BitVec.eq_of_toNat_eq
  rw [llhSeven_toNat, assemble_toNat w1 w2 h1 h2]
  rw [highBit_eq_decide, decide_eq_false_iff_not] at h1 h2
  omega

/-- A clean second length byte is the low half. -/
theorem lllSeven_assemble (h1 : highBit w1 = false) (h2 : highBit w2 = false) :
    lllSeven (lenHigh w1 ||| lenLow w2).toNat = w2 := by
  apply BitVec.eq_of_toNat_eq
  rw [lllSeven_toNat, assemble_toNat w1 w2 h1 h2]
  rw [highBit_eq_decide, decide_eq_false_iff_not] at h2
  omega

end Halves

/-! ### From the encoder to the decoder -/

theorem payloadFits_iff (L : Len) (payload : List Byte) :
    payloadFits L payload = true ↔ payload.length = L.toNat - 3 := beq_iff_eq

theorem countFits_iff (payload : List Byte) : countFits payload = true ↔ payload.length ≤ Config.maxLen :=
  decide_eq_true_iff

theorem decodeIdCountPayload_encoded {size : Nat → Nat} {n : Nat} {payload : List Byte} (hn : n ≤ Config.maxLen)
    (hsize : payload.length = size n) (mk : MsgId → Nat → List Byte → Instr) (id : MsgId) (rest : List Byte) :
    decodeIdCountPayload size mk (zext8 id :: portHigh n :: portLow n :: (payload ++ rest)) =
      .ok (mk id n payload, rest) := by
  have hid : highBit (zext8 id) = false := Checksum.highBit_zext8 id
  have hhi : ¬ 64 ≤ (portHigh n).toNat := by
    rw [portHigh_toNat hn]
    simp only [Config.maxLen] at hn
    omega
  have htake : takeExactly (size n) (payload ++ rest) = some (payload, rest) := by
    rw [← hsize, takeExactly_append]
  simp only [decodeIdCountPayload, hid, Bool.false_eq_true, if_false, if_neg hhi, portWord_portHigh_portLow hn, htake,
    low7_zext8]

/-- An instruction that is encoded as a frame of a known id decodes from it. -/
theorem decode_of_encode_eq_encodeMsg {w0 : Byte} {L : Len} {payload : List Byte} {i : Instr}
    (henc : encode i = encodeMsg w0 L payload) (hw0 : highBit w0 = true) (hi : messageOf w0 L payload = some i)
    (hfit : payloadFits L payload = true) (rest : List Byte) :
    decode ⟨(encode i).format, (encode i).bytes ++ rest⟩ = .ok (i, rest) := by
  have htake : takeExactly (L.toNat - Config.hdr) (payload ++ rest) = some (payload, rest) := by
    rw [← (payloadFits_iff L payload).1 hfit, takeExactly_append]
  simp only [henc, encodeMsg, List.cons_append, decode, decodeMsg, hw0, if_true, highBit_llhSeven, highBit_lllSeven,
    Bool.false_eq_true, if_false, lenHigh_or_lenLow, htake, hi]

/-- Settles O1: three operand forms carry a number that says where the instruction ends; every other instruction has a
fixed size, and its bytes decode by evaluation. -/
theorem decodeUndoesEncode : Obligations.DecodeUndoesEncode := by
  intro i rest hwf
  cases i with
  | txf id payload =>
    exact decodeIdCountPayload_encoded (size := fun n => n) ((countFits_iff payload).1 hwf) rfl
      (fun id _ payload => .txf id payload) id rest
  | disp id L payload =>
    have hL : L.toNat ≤ Config.maxLen := Nat.le_of_lt_succ L.isLt
    refine (decodeIdCountPayload_encoded (size := fun n => n - Config.hdr) hL ((payloadFits_iff L payload).1 hwf)
      (fun id n payload => .disp id (BitVec.ofNat 14 n) payload) id rest).trans ?_
    rw [BitVec.ofNat_toNat, BitVec.setWidth_eq]
  | msgBoardDump L payload | msgBwtime L payload | msgFieldUpdate L payload | msgEeMoves L payload
  | msgBusAddress L payload | msgSerialNumber L payload | msgTrademark L payload | msgVersion L payload
  | msgBoardDump50Black L payload | msgBoardDump50White L payload | msgBatteryStatus L payload
  | msgLongSerial L payload => exact decode_of_encode_eq_encodeMsg rfl rfl rfl hwf rest
  | _ => rfl

/-! ### From the decoder to the encoder -/

/-- What decoding answers in a code space: a well-formed instruction, whose encoding there stands in front of the bytes left
over. -/
def ReadsAs (f : Format) (bs : List Byte) (i : Instr) (rest : List Byte) : Prop :=
  i.wf = true ∧ (⟨f, bs⟩ : Presented) = ⟨(encode i).format, (encode i).bytes ++ rest⟩

section Forms

variable {bs rest : List Byte} {i : Instr}

theorem eq_ofNat_of_toNat_eq {b : Byte} {k : Nat} (h : b.toNat = k) : b = BitVec.ofNat 8 k := by
  rw [← h, BitVec.ofNat_toNat, BitVec.setWidth_eq]

theorem decodeByte_eq_ok_iff {mk : Byte → Instr} :
    decodeByte mk bs = .ok (i, rest) ↔ ∃ d, bs = d :: rest ∧ i = mk d := by
  cases bs with
  | nil => simp [decodeByte]
  | cons d bs => simp [decodeByte, and_comm, eq_comm]

theorem decodeBw_eq_ok {mk : BwPayload → Instr} (h : decodeBw mk bs = .ok (i, rest)) :
    ∃ p, bs = bwBytes p ++ rest ∧ i = mk p := by
  unfold decodeBw at h
  split at h
  · cases h
    exact ⟨_, rfl, rfl⟩
  · cases h

theorem decodeIdCountPayload_eq_ok {size : Nat → Nat} {mk : MsgId → Nat → List Byte → Instr}
    (h : decodeIdCountPayload size mk bs = .ok (i, rest)) :
    ∃ id n payload, n ≤ Config.maxLen ∧ payload.length = size n ∧ i = mk id n payload ∧
      bs = zext8 id :: portHigh n :: portLow n :: (payload ++ rest) := by
  unfold decodeIdCountPayload at h
  split at h
  case h_2 => cases h
  case h_1 id hi lo more =>
  split_ifs at h with hid hhi
  split at h
  case h_2 => cases h
  case h_1 payload rest' htake =>
  cases h
  obtain ⟨hlen, rfl⟩ := (takeExactly_eq_some_iff _ _ _ _).1 htake
  refine ⟨low7 id, portWord hi lo, payload, portWord_le_maxLen hhi lo, hlen, rfl, ?_⟩
  rw [zext8_low7 id (Bool.eq_false_of_not_eq_true hid), portHigh_portWord, portLow_portWord]

/-- A row of the id map (R57) is encoded as the frame it was read from. -/
theorem encode_of_messageOf {w0 : Byte} {L : Len} {payload : List Byte} (h : messageOf w0 L payload = some i) :
    encode i = encodeMsg w0 L payload ∧ i.wf = payloadFits L payload := by
  unfold messageOf at h
  split at h
  case h_13 => cases h
  all_goals
    next hw0 =>
    cases h
    obtain rfl := eq_ofNat_of_toNat_eq hw0
    exact ⟨rfl, rfl⟩

theorem encode_of_commandOf :
    ∀ b : Byte, ∀ i ∈ commandOf b, encode i = ⟨.cmd, [b]⟩ ∧ i.wf = true := by decide

theorem encode_of_subCommandOf :
    ∀ b : Byte, ∀ i ∈ subCommandOf b, encode i = ⟨.clksub, [b]⟩ ∧ i.wf = true := by decide

/-- Every select code, with the operand form of its row (R45, R46). -/
theorem readsAs_of_decodeOp (h : decodeOp bs = .ok (i, rest)) : ReadsAs .op bs i rest := by
  unfold decodeOp at h
  split at h
  case h_1 => cases h
  case h_2 b more =>
  split at h
  case h_17 => cases h
  case h_2 hb | h_5 hb | h_6 hb =>
    obtain rfl := eq_ofNat_of_toNat_eq hb
    obtain ⟨d, rfl, rfl⟩ := decodeByte_eq_ok_iff.1 h
    exact ⟨rfl, rfl⟩
  case h_3 hb =>
    obtain rfl := eq_ofNat_of_toNat_eq hb
    obtain ⟨id, n, payload, hn, hlen, rfl, rfl⟩ := decodeIdCountPayload_eq_ok h
    subst hlen
    exact ⟨(countFits_iff payload).2 hn, rfl⟩
  case h_7 hb =>
    obtain rfl := eq_ofNat_of_toNat_eq hb
    obtain ⟨id, n, payload, hn, hlen, rfl, rfl⟩ := decodeIdCountPayload_eq_ok h
    have hL : (BitVec.ofNat 14 n).toNat = n := by
      rw [BitVec.toNat_ofNat]
      exact Nat.mod_eq_of_lt (Nat.lt_succ_of_le hn)
    refine ⟨(payloadFits_iff _ _).2 (hL.symm ▸ hlen), ?_⟩
    simp only [encode, encodeIdCountPayload, hL]
    rfl
  case h_8 hb | h_9 hb =>
    obtain rfl := eq_ofNat_of_toNat_eq hb
    obtain ⟨p, rfl, rfl⟩ := decodeBw_eq_ok h
    exact ⟨rfl, rfl⟩
  all_goals
    next hb =>
    obtain rfl := eq_ofNat_of_toNat_eq hb
    cases h
    exact ⟨rfl, rfl⟩

theorem readsAs_of_decodeMsg (h : decodeMsg bs = .ok (i, rest)) : ReadsAs .msg bs i rest := by
  unfold decodeMsg at h
  split at h
  case h_1 | h_2 | h_3 => cases h
  case h_4 w0 w1 w2 more =>
  split_ifs at h with hw0 h1 h2
  split at h
  case h_2 => cases h
  case h_1 payload rest' htake =>
  split at h
  case h_2 => cases h
  case h_1 j hj =>
  cases h
  obtain ⟨hlen, rfl⟩ := (takeExactly_eq_some_iff _ _ _ _).1 htake
  obtain ⟨henc, hwf⟩ := encode_of_messageOf hj
  have h1 := Bool.eq_false_of_not_eq_true h1
  have h2 := Bool.eq_false_of_not_eq_true h2
  refine ⟨hwf.trans ((payloadFits_iff _ _).2 hlen), ?_⟩
  rw [henc, encodeMsg, llhSeven_assemble h1 h2, lllSeven_assemble h1 h2]
  rfl

theorem readsAs_of_decodeCmd (h : decodeCmd bs = .ok (i, rest)) : ReadsAs .cmd bs i rest := by
  unfold decodeCmd at h
  split at h
  case h_1 => cases h
  case h_2 b more =>
  split at h
  case h_2 => cases h
  case h_1 j hj =>
  cases h
  obtain ⟨henc, hwf⟩ := encode_of_commandOf b i hj
  exact ⟨hwf, by rw [henc]; rfl⟩

theorem readsAs_of_decodeClksub (h : decodeClksub bs = .ok (i, rest)) : ReadsAs .clksub bs i rest := by
  unfold decodeClksub at h
  split at h
  case h_1 => cases h
  case h_2 b more =>
  split at h
  case h_2 => cases h
  case h_1 j hj =>
  cases h
  obtain ⟨henc, hwf⟩ := encode_of_subCommandOf b i hj
  exact ⟨hwf, by rw [henc]; rfl⟩

end Forms

/-- Settles O2: one lemma for each code space. -/
theorem encodeUndoesDecode : Obligations.EncodeUndoesDecode := by
  rintro ⟨f, bs⟩ i rest h
  cases f with
  | op => exact readsAs_of_decodeOp h
  | msg => exact readsAs_of_decodeMsg h
  | cmd => exact readsAs_of_decodeCmd h
  | clksub => exact readsAs_of_decodeClksub h

/-- Settles O3: every word is the encoding of the instruction it stands for. -/
theorem writtenOutWordsDecode : Obligations.WrittenOutWordsDecode :=
  ⟨decodeUndoesEncode .rst [] rfl, decodeUndoesEncode (.rxb 0x8e) [] rfl,
    decodeUndoesEncode (.txf 0x0e [0x04, 0x01]) [] rfl, decodeUndoesEncode (.cschk 0x50) [] rfl,
    decodeUndoesEncode (.disp 0x20 12 [1, 2, 3, 4, 5, 6, 7, 8, 9]) [] rfl,
    decodeUndoesEncode (.acku ⟨0x01, 0x10, 0x0a, 0x1a, 0x00, 0x00, 0x00⟩) [] rfl,
    decodeUndoesEncode .reserved12 [] rfl, decodeUndoesEncode (.msgFieldUpdate 5 [0x04, 0x01]) [] rfl,
    decodeUndoesEncode .cmdClockMessage [] rfl, decodeUndoesEncode .clkSetAndRun [] rfl⟩

end Sys2Proof.Codec
end

section
/-! PROOFS. What an instruction can touch (spec/20_memory.md R33, R44): of the 58 constructors, one resets, one takes a stream
byte, twelve are frames on the receive stream, and every other computes its answer and the new accumulator from the
accumulator alone. Statements about all instructions are proved over these forms. -/

namespace Sys2Proof.Instructions

open Sys2Proof Sys2Proof.Machine

/-! ### Operations apart from the receive unit -/

/-- What an operation apart from the receive unit does: a new accumulator, the outputs and the host's own bytes, the first two
as functions of the accumulator before. -/
structure LocalEffect where
  acc  : Sum7 → Sum7
  out  : Sum7 → List Output
  sent : List Byte

def LocalEffect.apply (e : LocalEffect) (s : State) : State :=
  { s with csAcc := e.acc s.csAcc, out := e.out s.csAcc, hostSent := e.sent }

/-- An operation that answers the same in every state and changes none (R38). -/
def answering (o : Output) : LocalEffect := ⟨fun a => a, fun _ => [o], []⟩

/-- The five ways an instruction can work. -/
inductive Form : Instr → Prop where
  | reset : Form .rst
  | byte (d : Byte) : Form (.rxb d)
  | frame {i : Instr} (id : MsgId) (L : Len) (payload : List Byte) (hfmt : (encode i).format = .msg)
      (hexec : ∀ s, exec i s = receiveFrame id L payload s) : Form i
  | apart {i : Instr} (e : LocalEffect) (hfmt : (encode i).format ≠ .msg) (hrst : i ≠ .rst) (hrxb : ∀ d, i ≠ .rxb d)
      (hacc : i ≠ .csclr → (∀ d, i ≠ .csadd d) → e.acc = fun a => a) (hexec : ∀ s, exec i s = .next (e.apply s)) : Form i
  | notAFrame {i : Instr} (hwf : i.wf = false) (hexec : ∀ s, exec i s = .refused .notAFrame) : Form i

/-- An instruction outside the operation port whose byte passes the block by (R145). -/
theorem Form.of_passBy {i : Instr} {b : Byte} (hfmt : (encode i).format = .cmd ∨ (encode i).format = .clksub)
    (hexec : ∀ s, exec i s = .next (s.passBy [b])) : Form i := by
  refine .apart ⟨fun a => a, fun _ => [], [b]⟩ ?_ ?_ ?_ (fun _ _ => rfl) hexec
  · rintro hmsg
    rw [hmsg] at hfmt
    exact hfmt.elim nofun nofun
  · rintro rfl
    exact hfmt.elim nofun nofun
  · rintro d rfl
    exact hfmt.elim nofun nofun

section Arms

theorem execCschk_eq (d : Byte) (s : State) :
    execCschk d s =
      .next (s.answer (if checksumMatches s.csAcc d then .csOk else .checksumMismatch s.csAcc d)) := by
  rw [execCschk]
  split_ifs
  · rfl
  · rfl

variable {id : MsgId} {L : Len} {payload : List Byte}

theorem execDisp_of_short (h : L.toNat < 3) (s : State) : execDisp id L payload s = .next (s.answer (.opRefused 6)) :=
  if_pos h

theorem execDisp_of_fits (hL : 3 ≤ L.toNat) (hfit : payload.length = L.toNat - 3) (s : State) :
    execDisp id L payload s = .next (s.answer (.dispatched (dispatch ⟨id, L, payload⟩))) := by
  rw [execDisp, if_neg (Nat.not_lt.2 hL), if_pos hfit]

/-- Log 13. -/
theorem execDisp_of_misfit (hL : 3 ≤ L.toNat) (hfit : payload.length ≠ L.toNat - 3) (s : State) :
    execDisp id L payload s = .refused .notAFrame := by
  rw [execDisp, if_neg (Nat.not_lt.2 hL), if_neg hfit]

theorem form_disp : Form (.disp id L payload) := by
  rcases lt_or_ge L.toNat 3 with hshort | hL
  · exact .apart (answering (.opRefused 6)) nofun nofun nofun (fun _ _ => rfl) (execDisp_of_short hshort)
  · by_cases hfit : payload.length = L.toNat - 3
    · exact .apart (answering _) nofun nofun nofun (fun _ _ => rfl) (execDisp_of_fits hL hfit)
    · refine .notAFrame ?_ (execDisp_of_misfit hL hfit)
      exact Bool.eq_false_of_not_eq_true (mt (Codec.payloadFits_iff L payload).1 hfit)

theorem form_txf : Form (.txf id payload) := by
  rcases lt_or_ge Config.maxPayload payload.length with hlong | hfit
  · exact .apart (answering _) nofun nofun nofun (fun _ _ => rfl) (FrameEncoder.execTxf_of_tooLong hlong id)
  · exact .apart (answering _) nofun nofun nofun (fun _ _ => rfl) (FrameEncoder.execTxf_of_fits hfit id)

end Arms

/-- Every instruction has one of the five forms. -/
theorem form (i : Instr) : Form i := by
  cases i with
  | rst => exact .reset
  | rxb d => exact .byte d
  | txf id payload => exact form_txf
  | disp id L payload => exact form_disp
  | csclr => exact .apart ⟨fun _ => 0, fun _ => [.nothing], []⟩ nofun nofun nofun (fun h => absurd rfl h) fun _ => rfl
  | csadd d =>
    exact .apart ⟨fun a => checksumStep a d, fun a => [.sum (checksumStep a d)], []⟩ nofun nofun nofun
      (fun _ h => absurd rfl (h d)) fun _ => rfl
  | cschk d =>
    exact .apart ⟨fun a => a, fun a => [if checksumMatches a d then .csOk else .checksumMismatch a d], []⟩ nofun nofun nofun
      (fun _ _ => rfl) (execCschk_eq d)
  | bwcls | acku | reserved9 | reserved10 | reserved11 | reserved12 | reserved13 | reserved14 | reserved15 =>
    exact .apart (answering _) nofun nofun nofun (fun _ _ => rfl) fun _ => rfl
  | msgBoardDump L payload | msgBwtime L payload | msgFieldUpdate L payload | msgEeMoves L payload
  | msgBusAddress L payload | msgSerialNumber L payload | msgTrademark L payload | msgVersion L payload
  | msgBoardDump50Black L payload | msgBoardDump50White L payload | msgBatteryStatus L payload
  | msgLongSerial L payload => exact .frame _ L payload rfl fun _ => rfl
  | clkDisplay | clkIcons | clkEnd | clkButton | clkVersion | clkSetAndRun | clkBeep | clkAscii =>
    exact .of_passBy (.inr rfl) fun _ => rfl
  | _ => exact .of_passBy (.inl rfl) fun _ => rfl

/-! ### Which state each form reaches -/

section Reach

variable {s t : State} {d : Byte}

/-- A byte of the receive stream reaches neither the accumulator nor the port. -/
theorem rxByte_frame (h : rxByte d s = .next t) : t.port = s.port ∧ t.csAcc = s.csAcc := by
  obtain ⟨-, -, rfl⟩ | ⟨-, -, rfl⟩ | ⟨-, -, rfl⟩ | ⟨-, -, rfl⟩ | ⟨-, -, rfl⟩ | ⟨-, -, rfl⟩ | ⟨-, -, -, rfl⟩ |
    ⟨-, -, -, rfl⟩ | ⟨-, -, -, rfl⟩ | ⟨-, -, -, p, -, rfl⟩ | ⟨-, -, -, rfl⟩ := rxByte_cases d s t h <;>
  simp

theorem rxBytes_frame {ds : List Byte} (h : rxBytes ds s = .next t) : t.port = s.port ∧ t.csAcc = s.csAcc := by
  induction ds generalizing s t with
  | nil => cases h; exact ⟨rfl, rfl⟩
  | cons d ds ih =>
    obtain ⟨u, v, hu, hv, rfl⟩ := (andThen_eq_next_iff _ _ _).1 h
    obtain ⟨hport, hacc⟩ := rxByte_frame hu
    obtain ⟨hport', hacc'⟩ := ih hv
    exact ⟨hport'.trans hport, hacc'.trans hacc⟩

/-- Nor does it look at the accumulator: with another one before, it is the same byte with that one after. -/
theorem rxByte_withAcc (a : Sum7) (h : rxByte d s = .next t) :
    rxByte d { s with csAcc := a } = .next { t with csAcc := a } := by
  obtain ⟨hs, hd, rfl⟩ | ⟨hs, hd, rfl⟩ | ⟨hs, hd, rfl⟩ | ⟨hs, hd, rfl⟩ | ⟨hs, hd, rfl⟩ | ⟨hs, hd, rfl⟩ |
    ⟨hs, hd, hL, rfl⟩ | ⟨hs, hd, hL, rfl⟩ | ⟨hs, hd, hL, rfl⟩ | ⟨hs, ha, hlast, p, hp, rfl⟩ | ⟨hs, ha, hmore, rfl⟩ :=
    rxByte_cases d s t h
  · exact FrameDecoder.rxByte_of_awaiting hs hd
  · exact FrameDecoder.rxByte_idle_low hs hd
  · exact FrameDecoder.rxByte_hunt_low hs hd
  · exact FrameDecoder.rxByte_lenHi_clean hs hd
  · exact FrameDecoder.rxByte_lenHi_notClean hs hd
  · exact FrameDecoder.rxByte_lenLo_notClean hs hd
  · exact FrameDecoder.rxByte_lenLo_short hs hd hL
  · exact FrameDecoder.rxByte_lenLo_empty hs hd hL
  · exact FrameDecoder.rxByte_lenLo_payload hs hd hL
  · exact FrameDecoder.rxByte_payload_last hs ha hlast hp
  · exact FrameDecoder.rxByte_payload_more hs ha hmore

end Reach

/-- Settles O57: by the form of the instruction. -/
theorem eachOperationTouchesOnlyItsUnit : Obligations.EachOperationTouchesOnlyItsUnit := by
  intro i s t h
  cases form i with
  | reset => cases h; exact ⟨rfl, fun _ _ => ⟨rfl, fun hne => absurd rfl hne⟩, fun hne => absurd rfl hne⟩
  | byte d =>
    obtain ⟨hport, hacc⟩ := rxByte_frame h
    exact ⟨hport, fun _ hne => absurd rfl (hne d), fun _ _ _ => hacc⟩
  | frame id L payload hfmt hexec =>
    obtain ⟨hport, hacc⟩ := rxBytes_frame ((hexec s).symm.trans h)
    exact ⟨hport, fun hne => absurd hfmt hne, fun _ _ _ => hacc⟩
  | apart e _ _ _ hacc hexec =>
    obtain rfl := Host.Outcome.next.inj ((hexec s).symm.trans h)
    refine ⟨rfl, fun _ _ => ⟨rfl, fun _ => rfl⟩, fun _ hclr hadd => ?_⟩
    exact congrFun (hacc hclr hadd) s.csAcc
  | notAFrame _ hexec => cases (hexec s).symm.trans h

/-- Settles O58: such an operation works on the accumulator alone, which a stream byte neither reads nor writes. -/
theorem unitsCommute : Obligations.UnitsCommute := by
  intro i d s s1 t hop hrst hrxb hi hd
  obtain ⟨-, hacc⟩ := rxByte_frame hd
  cases form i with
  | reset => exact absurd rfl hrst
  | byte e => exact absurd rfl (hrxb e)
  | frame _ _ _ hfmt _ => cases hop.symm.trans hfmt
  | notAFrame _ hexec => cases (hexec s).symm.trans hi
  | apart e _ _ _ _ hexec =>
    obtain rfl := Host.Outcome.next.inj ((hexec s).symm.trans hi)
    refine ⟨{ t with csAcc := e.acc s.csAcc }, e.apply t, rxByte_withAcc _ hd, rfl, rfl, rfl, hexec t, ?_, ?_, ?_, rfl, rfl⟩
    · exact congrArg e.out hacc
    · exact congrArg e.acc hacc
    · exact congrArg e.acc hacc.symm

/-! ### Rows and single operations -/

/-- Settles O54: each command is dispatched to `passBy` of its own code. -/
theorem commandsLeaveTheBlockAlone : Obligations.CommandsLeaveTheBlockAlone := by
  intro row hrow
  fin_cases hrow <;> exact ⟨rfl, fun _ => rfl⟩

/-- Settles O55: as for the commands. -/
theorem subCommandsLeaveTheBlockAlone : Obligations.SubCommandsLeaveTheBlockAlone := by
  intro row hrow
  fin_cases hrow <;> exact ⟨rfl, fun _ => rfl⟩

/-- Settles O40: the arms of `DISP` on operands that the port can carry. -/
theorem dispAnswersTheDispatchResult : Obligations.DispAnswersTheDispatchResult := by
  intro id L payload s
  refine ⟨fun hfit => ?_, fun hshort => execDisp_of_short hshort s⟩
  have hL : 3 ≤ L.toNat := by omega
  have hlen : payload.length = L.toNat - 3 := by omega
  exact execDisp_of_fits hL hlen s

/-- A byte below 0x80 has its high bit clear. -/
theorem highBit_eq_false_of_lt {d : Byte} (h : d.toNat < 0x80) : highBit d = false := by
  rw [highBit_eq_decide, decide_eq_false_iff_not]
  omega

/-- Settles O56: the codes are a finite list; what `RXB` makes of them is what it makes of any byte below 0x80 (R68, R69). -/
theorem commandCodesAreDistinctAndClean : Obligations.CommandCodesAreDistinctAndClean := by
  have hclean : ∀ c ∈ commandCodes ++ subCommandCodes, c.toNat < 0x80 := by decide
  refine ⟨rfl, by decide, rfl, by decide, fun c hc => ⟨hclean c hc, fun s => ?_⟩, by decide⟩
  exact FrameDecoder.lowBytesOutsideAFrame s c (highBit_eq_false_of_lt (hclean c hc))

/-- Settles O60: the outcome is the operated state put back in its own place of the bank. -/
theorem instancesAreIndependent : Obligations.InstancesAreIndependent := by
  intro n bank after k j i h
  unfold execAt at h
  split at h
  case h_1 t ht =>
    cases h
    exact ⟨ht.trans (congrArg _ (by simp)), fun hne => by simp [Fin.val_ne_of_ne hne.symm]⟩
  case h_2 | h_3 => cases h

end Sys2Proof.Instructions
end

section
/-! PROOFS. Sequences of operations and the step (spec/20_memory.md R39, R40): no operation looks at what was answered before
it, so a sequence may be cut anywhere; a step is the operation or the bytes it takes from the port. -/

namespace Sys2Proof.Sequences

open Sys2Proof Sys2Proof.Machine

/-! ### What was answered before is not looked at (log 8) -/

/-- `f` answers the same whatever the record of the step before holds. -/
def IgnoresRecord (f : State → Result) : Prop :=
  ∀ (s : State) (os : List Output) (bs : List Byte), f { s with out := os, hostSent := bs } = f s

theorem rxByte_ignoresRecord (d : Byte) : IgnoresRecord (rxByte d) := fun _ _ _ => rfl

theorem rxBytes_ignoresRecord (ds : List Byte) : IgnoresRecord (rxBytes ds) := by
  cases ds with
  | nil => exact fun _ _ _ => rfl
  | cons d ds =>
    intro s os bs
    rw [rxBytes_cons, rxBytes_cons, rxByte_ignoresRecord d s os bs]

theorem exec_ignoresRecord (i : Instr) : IgnoresRecord (exec i) := by
  intro s os bs
  cases Instructions.form i with
  | reset => rfl
  | byte d => exact rxByte_ignoresRecord d s os bs
  | frame id L payload _ hexec =>
    rw [hexec, hexec]
    exact rxBytes_ignoresRecord _ s os bs
  | apart e _ _ _ _ hexec => rw [hexec, hexec]; rfl
  | notAFrame _ hexec => rw [hexec, hexec]

theorem execList_ignoresRecord (is : List Instr) : IgnoresRecord (execList is) := by
  cases is with
  | nil => exact fun _ _ _ => rfl
  | cons i is =>
    intro s os bs
    rw [execList_cons, execList_cons, exec_ignoresRecord i s os bs]

/-! ### Sequences in a row -/

theorem withEarlier_withEarlier (s t u : State) : (u.withEarlier t).withEarlier s = u.withEarlier (t.withEarlier s) := by
  simp only [State.withEarlier, List.append_assoc]

/-- Sequencing is associative where what comes last does not look at the record. -/
theorem andThen_assoc (r : Result) (f : State → Result) {g : State → Result} (hg : IgnoresRecord g) :
    andThen (andThen r f) g = andThen r fun s => andThen (f s) g := by
  cases r with
  | fault e => rfl
  | refused e => rfl
  | next s =>
    cases hf : f s with
    | fault e => simp only [andThen, hf]
    | refused e => simp only [andThen, hf]
    | next t =>
      have hrec : g (t.withEarlier s) = g t := hg t _ _
      simp only [andThen, hf, hrec]
      cases g t with
      | next u => exact congrArg _ (withEarlier_withEarlier s t u).symm
      | fault e => rfl
      | refused e => rfl

theorem execList_append (is js : List Instr) (s : State) :
    execList (is ++ js) s = andThen (execList is s) (execList js) := by
  induction is generalizing s with
  | nil =>
    have hrec : execList js s.hold = execList js s := execList_ignoresRecord js s _ _
    rw [List.nil_append, execList_nil, andThen, hrec]
    cases execList js s with
    | next t => rfl
    | fault e => rfl
    | refused e => rfl
  | cons i is ih =>
    rw [List.cons_append, execList_cons, execList_cons, andThen_assoc _ _ (execList_ignoresRecord js)]
    exact congrArg (andThen (exec i s)) (funext ih)

/-- Settles O27: what the two sequences in a row can answer. -/
theorem sequencesCompose : Obligations.SequencesCompose := by
  intro is js s u
  rw [execList_append, andThen_eq_next_iff]
  rfl

/-! ### The step -/

section Step

variable {s : State} {p : Presented} {more : List Presented}

theorem step_of_port_nil (h : s.port = []) : step s = .next s.hold := by
  rw [step, h]

theorem step_of_decode_ok {i : Instr} {rest : List Byte} (hport : s.port = p :: more) (h : decode p = .ok (i, rest)) :
    step s = exec i { s with port := more } := by
  rw [step, hport]
  simp only [h]

/-- Log 4. -/
theorem step_of_decode_error {e : DecodeError} (hport : s.port = p :: more) (h : decode p = .error e) :
    step s = performBytes p { s with port := more } := by
  rw [step, hport]
  simp only [h]

end Step

/-- Settles O4. -/
theorem stepRunsTheDecodedInstruction : Obligations.StepRunsTheDecodedInstruction :=
  fun _ _ _ _ _ => step_of_decode_ok

/-- Settles O5. -/
theorem stepHoldsWhenNothingIsPresented : Obligations.StepHoldsWhenNothingIsPresented :=
  fun _ => step_of_port_nil

/-- Settles O6: the effect of the bytes, code space by code space; for the second clause, the misfitting arm of `DISP`. -/
theorem bytesThatAreNoRowHaveTheirEffect : Obligations.BytesThatAreNoRowHaveTheirEffect := by
  refine ⟨fun s p more e hport herr => ?_, fun id L payload s hL hmisfit => ?_⟩
  · rw [step_of_decode_error hport herr]
    obtain ⟨f, bs⟩ := p
    refine ⟨?_, ?_, ?_⟩
    · rintro ⟨⟩
      exact (execList_rxs bs _).symm
    · rintro (⟨⟨⟩⟩ | ⟨⟨⟩⟩)
      · rfl
      · rfl
    · rintro ⟨⟩
      rfl
  · exact Instructions.execDisp_of_misfit hL (by omega) s

end Sys2Proof.Sequences
end

section
/-! PROOFS. The receive state along every run (spec/10_state.md R19, R21): under the invariant one byte of the stream always
falls under one rule of `RXB`, and the rule keeps the invariant. Completion, byte accounting and the bounds on what is
answered are read from the rules. -/

namespace Sys2Proof.Receiver

open Sys2Proof Sys2Proof.Machine

/-! ### The bytes of a written run of cells -/

/-- The first `n` cells of the buffer, in order. A cell nothing has written stands as 0; the lemmas speak of written runs. -/
def cells (m : Memory) (n : Nat) : List Byte := (List.range n).map fun a => (m.read a).getD 0

section Cells

variable {m m' : Memory} {n : Nat}

@[simp] theorem cells_length (m : Memory) (n : Nat) : (cells m n).length = n := by
  rw [cells, List.length_map, List.length_range]

theorem cells_congr (h : ∀ a, a < n → m.read a = m'.read a) : cells m n = cells m' n :=
  List.map_congr_left fun a ha => by rw [h a (List.mem_range.1 ha)]

/-- Writing the next cell appends its byte. -/
theorem cells_write_succ (m : Memory) (n : Nat) (d : Byte) : cells (m.write n d) (n + 1) = cells m n ++ [d] := by
  have hbelow : cells (m.write n d) n = cells m n :=
    cells_congr fun a ha => Memory.read_write_other m n a d ha.ne
  rw [← hbelow]
  simp [cells, List.range_succ]

/-- A written run is read as its cells (R73). -/
theorem readCells_of_written (hn : n ≤ Config.rxBufSize) (h : Written m n) : readCells m 0 n = .ok (cells m n) := by
  refine (readCells_eq_ok_iff m 0 n _).2 ⟨cells_length m n, fun a ha => ⟨by omega, ?_⟩⟩
  obtain ⟨v, hv⟩ := Option.isSome_iff_exists.1 (h a ha)
  simp [cells, ha, hv]

end Cells

/-! ### The rows of the invariant -/

section Rows

variable {s : State}

theorem rxRow_idle (hs : s.rxState = .idle) : s.rxRow ↔ s.rxCnt = 0 := by simp only [State.rxRow, hs]

theorem rxRow_hunt (hs : s.rxState = .hunt) : s.rxRow ↔ s.rxCnt = 0 := by simp only [State.rxRow, hs]

theorem rxRow_awaiting (hs : s.rxState = .idle ∨ s.rxState = .hunt) : s.rxRow ↔ s.rxCnt = 0 :=
  hs.elim rxRow_idle rxRow_hunt

theorem rxRow_lenHi (hs : s.rxState = .lenHi) : s.rxRow ↔ s.rxCnt = 1 := by simp only [State.rxRow, hs]

theorem rxRow_lenLo (hs : s.rxState = .lenLo) : s.rxRow ↔ s.rxCnt = 2 ∧ s.rxLen.toNat % 128 = 0 := by
  simp only [State.rxRow, hs]

theorem rxRow_payload (hs : s.rxState = .payload) :
    s.rxRow ↔ 3 ≤ s.rxCnt.toNat ∧ s.rxCnt.toNat < s.rxLen.toNat ∧ Written s.rxBuf (s.rxCnt.toNat - 3) := by
  simp only [State.rxRow, hs]

end Rows

/-! ### The rules of `RXB` under the invariant -/

/-- The rules R67 to R74, each with its condition and the state it leaves. The four error rows of R183 are one rule here. -/
inductive RxRule (s : State) (d : Byte) : State → Prop where
  | start (hs : s.rxState = .idle ∨ s.rxState = .hunt) (hd : highBit d = true) :
      RxRule s d ((s.startFrame d).answer .nothing)
  | skip (hs : s.rxState = .hunt) (hd : highBit d = false) : RxRule s d (s.answer .skipped)
  | invalid {c : Cause} {k : Nat} {r : Resync} (hrow : Exceptions.InvalidRow s d c k r) :
      RxRule s d (s.raise (.frameInvalid c k) r)
  | lengthHigh (hs : s.rxState = .lenHi) (hd : highBit d = false) :
      RxRule s d ({ s with rxLen := lenHigh d, rxCnt := 2, rxState := .lenLo }.answer .nothing)
  | lengthEmpty (hs : s.rxState = .lenLo) (hd : highBit d = false) (hL : (s.rxLen ||| lenLow d).toNat = 3) :
      RxRule s d ({ s with rxLen := s.rxLen ||| lenLow d }.complete s.rxId (s.rxLen ||| lenLow d) [])
  | lengthLow (hs : s.rxState = .lenLo) (hd : highBit d = false) (hL : 3 < (s.rxLen ||| lenLow d).toNat) :
      RxRule s d ({ s with rxLen := s.rxLen ||| lenLow d, rxCnt := 3, rxState := .payload }.answer .nothing)
  | store (hs : s.rxState = .payload) (hlo : 3 ≤ s.rxCnt.toNat) (hmore : s.rxCnt.toNat + 1 < s.rxLen.toNat)
      (hw : Written s.rxBuf (s.rxCnt.toNat - 3)) :
      RxRule s d
        ({ s with rxBuf := s.rxBuf.write (s.rxCnt.toNat - 3) d, rxCnt := s.rxCnt + 1 }.answer .nothing)
  | deliver (hs : s.rxState = .payload) (hlo : 3 ≤ s.rxCnt.toNat) (hlast : s.rxCnt.toNat + 1 = s.rxLen.toNat)
      (hw : Written s.rxBuf (s.rxCnt.toNat - 3)) :
      RxRule s d
        ({ s with rxBuf := s.rxBuf.write (s.rxCnt.toNat - 3) d }.complete s.rxId s.rxLen
          (cells s.rxBuf (s.rxCnt.toNat - 3) ++ [d]))

section Rules

variable {s t : State} {d : Byte}

/-- Each rule is what `RXB` does under its condition. -/
theorem rxByte_of_rxRule (h : RxRule s d t) : rxByte d s = .next t := by
  cases h with
  | start hs hd => exact FrameDecoder.rxByte_of_awaiting hs hd
  | skip hs hd => exact FrameDecoder.rxByte_hunt_low hs hd
  | invalid hrow => exact Exceptions.rxByte_of_invalidRow hrow
  | lengthHigh hs hd => exact FrameDecoder.rxByte_lenHi_clean hs hd
  | lengthEmpty hs hd hL => exact FrameDecoder.rxByte_lenLo_empty hs hd hL
  | lengthLow hs hd hL => exact FrameDecoder.rxByte_lenLo_payload hs hd hL
  | store hs hlo hmore hw =>
    have hhi : s.rxCnt.toNat < s.rxLen.toNat := by omega
    have hne : s.rxCnt + 1 ≠ s.rxLen := fun h => by
      rw [← h, FrameDecoder.succ_toNat_of_lt hhi] at hmore
      exact lt_irrefl _ hmore
    rw [← FrameDecoder.cellIndex_toNat hlo]
    exact FrameDecoder.rxByte_payload_more hs (FrameDecoder.cellIndex_lt_rxBufSize hlo hhi) hne
  | deliver hs hlo hlast hw =>
    have hhi : s.rxCnt.toNat < s.rxLen.toNat := by omega
    have hend : s.rxCnt + 1 = s.rxLen := BitVec.eq_of_toNat_eq ((FrameDecoder.succ_toNat_of_lt hhi).trans hlast)
    have ha := FrameDecoder.cellIndex_lt_rxBufSize hlo hhi
    have hcell := FrameDecoder.cellIndex_toNat hlo
    have hread : readCells (s.rxBuf.write (cellIndex s.rxCnt).toNat d) 0 (s.rxLen.toNat - 3) =
        .ok (cells s.rxBuf (s.rxCnt.toNat - 3) ++ [d]) := by
      rw [hcell] at ha
      rw [hcell, show s.rxLen.toNat - 3 = s.rxCnt.toNat - 3 + 1 by omega, ← cells_write_succ]
      exact readCells_of_written ha (FrameDecoder.written_write_succ d hw)
    rw [← hcell] at hread ⊢
    exact FrameDecoder.rxByte_payload_last hs ha hend hread

/-- Under the invariant every byte falls under a rule. -/
theorem exists_rxRule (hs : s.Inv) (d : Byte) : ∃ t, RxRule s d t := by
  obtain ⟨-, hrow⟩ := hs
  cases hs : s.rxState with
  | idle =>
    cases hd : highBit d with
    | true => exact ⟨_, .start (.inl hs) hd⟩
    | false => exact ⟨_, .invalid (.notStart hs hd)⟩
  | hunt =>
    cases hd : highBit d with
    | true => exact ⟨_, .start (.inr hs) hd⟩
    | false => exact ⟨_, .skip hs hd⟩
  | lenHi =>
    cases hd : highBit d with
    | true => exact ⟨_, .invalid (.lenHiNotClean hs hd)⟩
    | false => exact ⟨_, .lengthHigh hs hd⟩
  | lenLo =>
    cases hd : highBit d with
    | true => exact ⟨_, .invalid (.lenLoNotClean hs hd)⟩
    | false =>
      obtain hL | hL | hL := lt_trichotomy (s.rxLen ||| lenLow d).toNat 3
      · exact ⟨_, .invalid (.lenRange hs hd hL)⟩
      · exact ⟨_, .lengthEmpty hs hd hL⟩
      · exact ⟨_, .lengthLow hs hd hL⟩
  | payload =>
    obtain ⟨hlo, hhi, hw⟩ := (rxRow_payload hs).1 hrow
    obtain hmore | hlast := (Nat.succ_le_of_lt hhi).lt_or_eq
    · exact ⟨_, .store hs hlo hmore hw⟩
    · exact ⟨_, .deliver hs hlo hlast hw⟩

/-- A clean length byte 1 leaves the low half of the length empty (R21, row `LEN_LO`). -/
theorem lenHigh_toNat_mod (hd : highBit d = false) : (lenHigh d).toNat % 128 = 0 := by
  rw [FrameDecoder.lenHigh_toNat hd]
  exact Nat.mul_mod_right 128 d.toNat

/-- Every rule keeps the invariant. -/
theorem inv_of_rxRule (hs : s.Inv) (h : RxRule s d t) : t.Inv := by
  obtain ⟨hwf, hrow⟩ := hs
  cases h with
  | start => exact ⟨hwf, rfl⟩
  | skip => exact ⟨hwf, hrow⟩
  | invalid hinv => cases hinv <;> exact ⟨hwf, rfl⟩
  | lengthHigh hs hd => exact ⟨hwf, rfl, lenHigh_toNat_mod hd⟩
  | lengthEmpty => exact ⟨hwf, rfl⟩
  | lengthLow hs hd hL =>
    refine ⟨hwf, (rxRow_payload rfl).2 ⟨le_refl 3, hL, fun a ha => absurd ha (Nat.not_lt_zero a)⟩⟩
  | store hs hlo hmore hw =>
    have hhi : s.rxCnt.toNat < s.rxLen.toNat := by omega
    have ha := FrameDecoder.cellIndex_lt_rxBufSize hlo hhi
    rw [FrameDecoder.cellIndex_toNat hlo] at ha
    have hcnt := FrameDecoder.succ_toNat_of_lt hhi
    refine ⟨Memory.wf_write _ _ d ha hwf, (rxRow_payload ?_).2 ?_⟩
    · exact hs
    simp only [State.answer_rxCnt, State.answer_rxLen, State.answer_rxBuf, hcnt]
    refine ⟨by omega, hmore, ?_⟩
    rw [show s.rxCnt.toNat + 1 - 3 = s.rxCnt.toNat - 3 + 1 by omega]
    exact FrameDecoder.written_write_succ d hw
  | deliver hs hlo hlast hw =>
    have ha := FrameDecoder.cellIndex_lt_rxBufSize hlo (show s.rxCnt.toNat < s.rxLen.toNat by omega)
    rw [FrameDecoder.cellIndex_toNat hlo] at ha
    exact ⟨Memory.wf_write _ _ d ha hwf, rfl⟩

/-- R79, one byte: what was held and the byte are what the output accounts for and what is held. -/
theorem bytesAccounted_of_rxRule (hs : s.Inv) (h : RxRule s d t) :
    s.rxCnt.toNat + 1 = (t.out.map bytesAccounted).sum + t.rxCnt.toNat := by
  obtain ⟨-, hrow⟩ := hs
  cases h with
  | start hs =>
    rw [(rxRow_awaiting hs).1 hrow]
    rfl
  | skip hs =>
    rw [State.answer_rxCnt, (rxRow_hunt hs).1 hrow]
    rfl
  | invalid hinv =>
    cases hinv with
    | notStart hs =>
      rw [(rxRow_idle hs).1 hrow]
      rfl
    | lenHiNotClean hs =>
      rw [(rxRow_lenHi hs).1 hrow]
      rfl
    | lenLoNotClean hs =>
      rw [((rxRow_lenLo hs).1 hrow).1]
      rfl
    | lenRange hs =>
      rw [((rxRow_lenLo hs).1 hrow).1]
      rfl
  | lengthHigh hs =>
    rw [(rxRow_lenHi hs).1 hrow]
    rfl
  | lengthEmpty hs _ hL =>
    rw [((rxRow_lenLo hs).1 hrow).1]
    simp [bytesAccounted, hL]
  | lengthLow hs =>
    rw [((rxRow_lenLo hs).1 hrow).1]
    rfl
  | store hs hlo hmore hw =>
    have hcnt := FrameDecoder.succ_toNat_of_lt (show s.rxCnt.toNat < s.rxLen.toNat by omega)
    rw [← hcnt]
    exact (Nat.zero_add _).symm
  | deliver hs hlo hlast hw => simp [bytesAccounted, hlast]

end Rules

/-! ### Runs of bytes -/

theorem exists_rxByte {s : State} (hs : s.Inv) (d : Byte) :
    ∃ t, rxByte d s = .next t ∧ t.Inv ∧ s.rxCnt.toNat + 1 = (t.out.map bytesAccounted).sum + t.rxCnt.toNat := by
  obtain ⟨t, ht⟩ := exists_rxRule hs d
  exact ⟨t, rxByte_of_rxRule ht, inv_of_rxRule hs ht, bytesAccounted_of_rxRule hs ht⟩

/-- Runs of bytes complete, keep the invariant, and account for every byte (R79). -/
theorem exists_rxBytes {s : State} (hs : s.Inv) (ds : List Byte) :
    ∃ t, rxBytes ds s = .next t ∧ t.Inv ∧
      s.rxCnt.toNat + ds.length = (t.out.map bytesAccounted).sum + t.rxCnt.toNat := by
  induction ds generalizing s with
  | nil => exact ⟨s.hold, rfl, hs, by simp⟩
  | cons d ds ih =>
    obtain ⟨t, ht, hinv, hcount⟩ := exists_rxByte hs d
    obtain ⟨u, hu, hinv', hcount'⟩ := ih hinv
    refine ⟨u.withEarlier t, (andThen_eq_next_iff _ _ _).2 ⟨t, u, ht, hu, rfl⟩, hinv', ?_⟩
    simp only [State.withEarlier_out, State.withEarlier_rxCnt, List.map_append, List.sum_append, List.length_cons]
    omega

/-- Settles O23: the rule of the byte, and the sum over the run. -/
theorem everyByteIsAccountedFor : Obligations.EveryByteIsAccountedFor := by
  refine ⟨fun s d hs => exists_rxByte hs d, fun s bs hs => ?_⟩
  rw [execList_rxs]
  exact exists_rxBytes hs bs

/-- Settles O21: the row of R183 leaves the parser hunting or with the offending byte as a header; a byte with its high bit
set starts a frame from the first and restarts one from the second. -/
theorem parserNeverStuckAfterFrameInvalid : Obligations.ParserNeverStuckAfterFrameInvalid := by
  intro s t d c k h hout
  obtain ⟨r, hrow⟩ := Exceptions.exists_invalidRow h hout
  obtain rfl := Exceptions.eq_raise_of_invalidRow h hrow
  have hafter : (s.raise (.frameInvalid c k) r).rxState = .hunt ∨ (s.raise (.frameInvalid c k) r).rxState = .lenHi := by
    cases hrow with
    | notStart | lenRange => exact .inl rfl
    | lenHiNotClean | lenLoNotClean => exact .inr rfl
  refine ⟨hafter, fun e he => ?_⟩
  obtain hhunt | hlenHi := hafter
  · exact ⟨_, FrameDecoder.rxByte_of_awaiting (.inr hhunt) he, rfl, rfl, rfl⟩
  · exact ⟨_, FrameDecoder.rxByte_lenHi_notClean hlenHi he, rfl, rfl, rfl⟩

/-! ### Instructions and steps -/

/-- Settles O8: nothing is listed in the buffer, and no byte has been taken. -/
theorem resetMeetsTheInvariant : Obligations.ResetMeetsTheInvariant := ⟨rfl, rfl⟩

/-- Settles O11: an instruction without a stream byte leaves buffer and registers as they are, or resets them. -/
theorem everyInstructionCompletes : Obligations.EveryInstructionCompletes := by
  intro i s hwf hs
  cases Instructions.form i with
  | reset => exact ⟨_, rfl, hs.1, rfl⟩
  | byte d =>
    obtain ⟨t, ht, hinv, -⟩ := exists_rxByte hs d
    exact ⟨t, ht, hinv⟩
  | frame id L payload _ hexec =>
    obtain ⟨t, ht, hinv, -⟩ := exists_rxBytes hs (headerOf id L.toNat ++ payload)
    exact ⟨t, (hexec s).trans ht, hinv⟩
  | apart e _ _ _ _ hexec => exact ⟨e.apply s, hexec s, hs⟩
  | notAFrame hbad => cases hbad.symm.trans hwf

theorem exists_performBytes {s : State} (hs : s.Inv) (p : Presented) : ∃ t, performBytes p s = .next t ∧ t.Inv := by
  obtain ⟨f, bs⟩ := p
  cases f with
  | op => exact ⟨_, rfl, hs⟩
  | msg =>
    obtain ⟨t, ht, hinv, -⟩ := exists_rxBytes hs bs
    exact ⟨t, ht, hinv⟩
  | cmd => exact ⟨_, rfl, hs⟩
  | clksub => exact ⟨_, rfl, hs⟩

/-- A step from a state that meets the invariant completes, whatever is presented, and keeps it. -/
theorem exists_step {s : State} (hs : s.Inv) : ∃ t, step s = .next t ∧ t.Inv := by
  cases hport : s.port with
  | nil => exact ⟨s.hold, Sequences.step_of_port_nil hport, hs⟩
  | cons p more =>
    cases hdec : decode p with
    | error e =>
      rw [Sequences.step_of_decode_error hport hdec]
      exact exists_performBytes (s := { s with port := more }) hs p
    | ok r =>
      obtain ⟨i, rest⟩ := r
      rw [Sequences.step_of_decode_ok hport hdec]
      obtain ⟨hwf, -⟩ := Codec.encodeUndoesDecode p i rest hdec
      exact everyInstructionCompletes i { s with port := more } hwf hs

/-- Settles O10: the step answers one state, and that one meets the invariant. -/
theorem everyStepKeepsTheInvariant : Obligations.EveryStepKeepsTheInvariant := by
  intro s t hs h
  obtain ⟨t', ht', hinv⟩ := exists_step hs
  obtain rfl := Host.Outcome.next.inj (ht'.symm.trans h)
  exact hinv

theorem run_succ_of_step {M : Host.Core} {s t : M.State} (n : Nat) (h : M.step s = .next t) :
    M.run (n + 1) s = M.run n t := by
  rw [Host.Core.run, h]

/-- Settles O12: by induction on the number of steps. -/
theorem runsNeverStop : Obligations.RunsNeverStop := by
  intro n
  induction n with
  | zero => exact fun s hs => ⟨s, rfl, hs⟩
  | succ n ih =>
    intro s hs
    obtain ⟨t, ht, hinv⟩ := exists_step hs
    obtain ⟨u, hu, hinv'⟩ := ih t hinv
    exact ⟨u, (run_succ_of_step (M := Sys2Proof.core) n ht).trans hu, hinv'⟩

/-! ### The closed output sets -/

/-- What a rule of `RXB` answers is one of the outputs that R46 lists for it. -/
theorem exists_out_of_rxRule {s t : State} {d : Byte} (h : RxRule s d t) :
    ∃ o, t.out = [o] ∧ outputAllowed (.rxb d) o = true := by
  cases h with
  | invalid hrow =>
    refine ⟨_, rfl, ?_⟩
    cases hrow <;> rfl
  | _ => exact ⟨_, rfl, rfl⟩

/-- Settles O13: the answer of each operation of the port, arm by arm. -/
theorem eachOperationAnswersOneOutputOfItsSet : Obligations.EachOperationAnswersOneOutputOfItsSet := by
  intro i s hop hwf hs
  cases i with
  | rxb d =>
    obtain ⟨t, ht⟩ := exists_rxRule hs d
    obtain ⟨o, hout, hset⟩ := exists_out_of_rxRule ht
    exact ⟨t, o, rxByte_of_rxRule ht, hout, hset⟩
  | txf id payload =>
    rcases lt_or_ge Config.maxPayload payload.length with hlong | hfit
    · exact ⟨_, _, FrameEncoder.execTxf_of_tooLong hlong id s, rfl, beq_self_eq_true payload.length⟩
    · exact ⟨_, _, FrameEncoder.execTxf_of_fits hfit id s, rfl, rfl⟩
  | cschk d =>
    refine ⟨_, _, Instructions.execCschk_eq d s, rfl, ?_⟩
    split_ifs
    · rfl
    · exact beq_self_eq_true d
  | disp id L payload =>
    rcases lt_or_ge L.toNat 3 with hshort | hL
    · exact ⟨_, _, Instructions.execDisp_of_short hshort s, rfl, decide_eq_true hshort⟩
    · exact ⟨_, _, Instructions.execDisp_of_fits hL ((Codec.payloadFits_iff L payload).1 hwf) s, rfl, rfl⟩
  | bwcls p =>
    refine ⟨_, _, rfl, rfl, ?_⟩
    split_ifs
    · rfl
    · rfl
  | rst | csclr | csadd | acku | reserved9 | reserved10 | reserved11 | reserved12 | reserved13 | reserved14
  | reserved15 => exact ⟨_, _, rfl, rfl, rfl⟩
  | _ => cases hop

end Sys2Proof.Receiver
end

section
/-! PROOFS. What no run can see (spec/10_state.md R19, R28; spec/70_reset_and_hazards.md R212): the cells beyond the frame being
received. Two states that differ in nothing else fall under the same rule of `RXB` for every byte, and the rule reads the
agreed cells alone. -/

namespace Sys2Proof.Leftovers

open Sys2Proof Sys2Proof.Machine Sys2Proof.Receiver

section View

variable {s t u : State} {d : Byte}

/-- Whatever `s` does with a byte, a state of the same view does with the same answer, and the views stay the same. -/
theorem exists_rxRule_of_sameView (ht : t.Inv) (hview : SameView s t) (h : RxRule s d u) :
    ∃ v, RxRule t d v ∧ u.out = v.out ∧ SameView u v := by
  have hwritten : t.rxState = .payload → Written t.rxBuf (t.rxCnt.toNat - 3) :=
    fun hpayload => ((rxRow_payload hpayload).1 ht.2).2.2
  obtain ⟨_, _, _, _, buf, _, _, _, _⟩ := t
  obtain ⟨rfl, rfl, rfl, rfl, rfl, hcells⟩ := hview
  cases h with
  | start hs hd => exact ⟨_, .start hs hd, rfl, rfl, rfl, rfl, rfl, rfl, nofun⟩
  | skip hs hd => exact ⟨_, .skip hs hd, rfl, rfl, rfl, rfl, rfl, rfl, hcells⟩
  | invalid hinv =>
    cases hinv with
    | notStart hs hd => exact ⟨_, .invalid (.notStart hs hd), rfl, rfl, rfl, rfl, rfl, rfl, nofun⟩
    | lenHiNotClean hs hd => exact ⟨_, .invalid (.lenHiNotClean hs hd), rfl, rfl, rfl, rfl, rfl, rfl, nofun⟩
    | lenLoNotClean hs hd => exact ⟨_, .invalid (.lenLoNotClean hs hd), rfl, rfl, rfl, rfl, rfl, rfl, nofun⟩
    | lenRange hs hd hL => exact ⟨_, .invalid (.lenRange hs hd hL), rfl, rfl, rfl, rfl, rfl, rfl, nofun⟩
  | lengthHigh hs hd => exact ⟨_, .lengthHigh hs hd, rfl, rfl, rfl, rfl, rfl, rfl, nofun⟩
  | lengthEmpty hs hd hL => exact ⟨_, .lengthEmpty hs hd hL, rfl, rfl, rfl, rfl, rfl, rfl, nofun⟩
  | lengthLow hs hd hL =>
    exact ⟨_, .lengthLow hs hd hL, rfl, rfl, rfl, rfl, rfl, rfl, fun _ a ha => absurd ha (Nat.not_lt_zero a)⟩
  | store hs hlo hmore hw =>
    refine ⟨_, .store hs hlo hmore (hwritten hs), rfl, rfl, rfl, rfl, rfl, rfl, fun _ a ha => ?_⟩
    have hcnt := FrameDecoder.succ_toNat_of_lt (show s.rxCnt.toNat < s.rxLen.toNat by omega)
    rw [State.answer_rxCnt, hcnt] at ha
    simp only [State.answer_rxBuf, Memory.read_write]
    split_ifs with heq
    · rfl
    · exact hcells hs a (by omega)
  | deliver hs hlo hlast hw =>
    refine ⟨_, .deliver hs hlo hlast (hwritten hs), ?_, rfl, rfl, rfl, rfl, rfl, nofun⟩
    rw [State.complete_out, cells_congr (hcells hs), State.complete_out]

/-- One instruction, or any other operation: from two such states it completes, with the same answer, in two such states. -/
def RespectsView (f : State → Result) : Prop :=
  ∀ s t : State, s.Inv → t.Inv → SameView s t →
    ∃ u v, f s = .next u ∧ f t = .next v ∧ u.Inv ∧ v.Inv ∧ u.out = v.out ∧ SameView u v

theorem respectsView_hold : RespectsView fun s => .next s.hold :=
  fun s t hs ht hview => ⟨s.hold, t.hold, rfl, rfl, hs, ht, rfl, hview⟩

theorem RespectsView.andThen {f g : State → Result} (hf : RespectsView f) (hg : RespectsView g) :
    RespectsView fun s => andThen (f s) g := by
  intro s t hs ht hview
  obtain ⟨u, v, hu, hv, hiu, hiv, hout, hview'⟩ := hf s t hs ht hview
  obtain ⟨u', v', hu', hv', hiu', hiv', hout', hview''⟩ := hg u v hiu hiv hview'
  refine ⟨u'.withEarlier u, v'.withEarlier v, (andThen_eq_next_iff _ _ _).2 ⟨u, u', hu, hu', rfl⟩,
    (andThen_eq_next_iff _ _ _).2 ⟨v, v', hv, hv', rfl⟩, hiu', hiv', ?_, hview''⟩
  rw [State.withEarlier_out, State.withEarlier_out, hout, hout']

theorem rxByte_respectsView (d : Byte) : RespectsView (rxByte d) := by
  intro s t hs ht hview
  obtain ⟨u, hu⟩ := exists_rxRule hs d
  obtain ⟨v, hv, hout, hview'⟩ := exists_rxRule_of_sameView ht hview hu
  exact ⟨u, v, rxByte_of_rxRule hu, rxByte_of_rxRule hv, inv_of_rxRule hs hu, inv_of_rxRule ht hv, hout, hview'⟩

theorem rxBytes_respectsView (ds : List Byte) : RespectsView (rxBytes ds) := by
  induction ds with
  | nil => exact respectsView_hold
  | cons d ds ih => exact (rxByte_respectsView d).andThen ih

theorem exec_respectsView {i : Instr} (hwf : i.wf = true) : RespectsView (exec i) := by
  intro s t hs ht hview
  cases Instructions.form i with
  | reset => exact ⟨_, _, rfl, rfl, ⟨hs.1, rfl⟩, ⟨ht.1, rfl⟩, rfl, rfl, rfl, rfl, rfl, rfl, nofun⟩
  | byte d => exact rxByte_respectsView d s t hs ht hview
  | frame id L payload _ hexec =>
    rw [hexec, hexec]
    exact rxBytes_respectsView _ s t hs ht hview
  | apart e _ _ _ _ hexec =>
    obtain ⟨hstate, hid, hlen, hcnt, hacc, hcells⟩ := hview
    exact ⟨_, _, hexec s, hexec t, hs, ht, congrArg e.out hacc, hstate, hid, hlen, hcnt, congrArg e.acc hacc, hcells⟩
  | notAFrame hbad => cases hbad.symm.trans hwf

theorem execList_respectsView {is : List Instr} (hwf : ∀ i ∈ is, i.wf = true) : RespectsView (execList is) := by
  induction is with
  | nil => exact respectsView_hold
  | cons i is ih =>
    obtain ⟨hi, his⟩ := List.forall_mem_cons.1 hwf
    exact (exec_respectsView hi).andThen (ih his)

end View

/-- Settles O59: every instruction respects the view, so every sequence does. -/
theorem bufferLeftoversAreUnobservable : Obligations.BufferLeftoversAreUnobservable := by
  intro is s t hs ht hview hwf
  obtain ⟨u, v, hu, hv, -, -, hout, hview'⟩ := execList_respectsView hwf s t hs ht hview
  exact ⟨u, v, hu, hv, hout, hview'⟩

/-- Settles O9: after `RST` the state has the view of the state after power-on. -/
theorem rstForgetsEverything : Obligations.RstForgetsEverything := by
  intro s t is hs h hwf
  obtain rfl := Host.Outcome.next.inj ((Reset.exec_rst s).symm.trans h)
  have hview : SameView ((Reset.resetRegs s).answer .nothing) State.reset := ⟨rfl, rfl, rfl, rfl, rfl, nofun⟩
  have hinv : ((Reset.resetRegs s).answer .nothing).Inv := ⟨hs.1, rfl⟩
  obtain ⟨u, v, hu, hv, -, -, hout, -⟩ := execList_respectsView hwf _ _ hinv resetMeetsTheInvariant hview
  exact ⟨u, v, hu, hv, hout⟩

end Sys2Proof.Leftovers
end

section
/-! PROOFS. The buffer-level decoder (spec/40_frame_decoder.md R75 to R77): one equation for each decision of
`try_decode_frame`, and one for each round of `decode_all`, free of the bound on its rounds (log 21). -/

namespace Sys2Proof.Buffer

open Sys2Proof Sys2Proof.Machine

/-! ### The decisions of `try_decode_frame` -/

section Decisions

variable {w0 w1 w2 : Byte} {r : List Byte}

theorem tryDecodeFrame_notStart (h0 : highBit w0 = false) : tryDecodeFrame (w0 :: r) = .invalid .notStart := by
  simp only [tryDecodeFrame, h0, Bool.false_eq_true, if_false]

theorem tryDecodeFrame_byteOneNotClean (h0 : highBit w0 = true) (h1 : highBit w1 = true) :
    tryDecodeFrame (w0 :: w1 :: r) = .invalid .lenNotClean := by
  simp only [tryDecodeFrame, h0, h1, if_true]

theorem tryDecodeFrame_byteTwoNotClean (h0 : highBit w0 = true) (h1 : highBit w1 = false) (h2 : highBit w2 = true) :
    tryDecodeFrame (w0 :: w1 :: w2 :: r) = .invalid .lenNotClean := by
  simp only [tryDecodeFrame, h0, h1, h2, if_true, Bool.false_eq_true, if_false]

theorem tryDecodeFrame_one (h0 : highBit w0 = true) : tryDecodeFrame [w0] = .incomplete := by
  simp only [tryDecodeFrame, h0, if_true]

theorem tryDecodeFrame_two (h0 : highBit w0 = true) (h1 : highBit w1 = false) :
    tryDecodeFrame [w0, w1] = .incomplete := by
  simp only [tryDecodeFrame, h0, h1, if_true, Bool.false_eq_true, if_false]

/-- A whole clean header is that of a frame with its id and length. -/
theorem header_eq_headerOf (h0 : highBit w0 = true) (h1 : highBit w1 = false) (h2 : highBit w2 = false) :
    w0 :: w1 :: w2 :: r = headerOf (low7 w0) (lenHigh w1 ||| lenLow w2).toNat ++ r := by
  rw [headerOf, Codec.headerByte_low7 w0 h0, Codec.llhSeven_assemble h1 h2, Codec.lllSeven_assemble h1 h2]
  rfl

/-- After a clean header the length decides (R75). -/
theorem tryDecodeFrame_headerOf (id : MsgId) (L : Len) (r : List Byte) :
    tryDecodeFrame (headerOf id L.toNat ++ r) =
      if L.toNat < 3 then .invalid .lenRange
      else if r.length + 3 < L.toNat then .incomplete
      else .complete ⟨id, L, r.take (L.toNat - 3)⟩ L.toNat := by
  simp only [headerOf, List.cons_append, List.nil_append, tryDecodeFrame, highBit_headerByte, Codec.highBit_llhSeven,
    Codec.highBit_lllSeven, Codec.lenHigh_or_lenLow, low7_headerByte, if_true, Bool.false_eq_true, if_false]

end Decisions

/-- Everything a buffer can be to `try_decode_frame`: too short to decide, invalid in its header, or with a clean header. -/
inductive Shape : List Byte → Prop where
  | undecided {buf : List Byte} (h : tryDecodeFrame buf = .incomplete) : Shape buf
  | invalid {buf : List Byte} (c : Cause) (h : ∀ more, tryDecodeFrame (buf ++ more) = .invalid c) : Shape buf
  | header (id : MsgId) (L : Len) (r : List Byte) : Shape (headerOf id L.toNat ++ r)

theorem shape (buf : List Byte) : Shape buf := by
  match buf with
  | [] => exact .undecided rfl
  | w0 :: r0 =>
    cases h0 : highBit w0 with
    | false => exact .invalid .notStart fun _ => tryDecodeFrame_notStart h0
    | true =>
    match r0 with
    | [] => exact .undecided (tryDecodeFrame_one h0)
    | w1 :: r1 =>
      cases h1 : highBit w1 with
      | true => exact .invalid .lenNotClean fun _ => tryDecodeFrame_byteOneNotClean h0 h1
      | false =>
      match r1 with
      | [] => exact .undecided (tryDecodeFrame_two h0 h1)
      | w2 :: r =>
        cases h2 : highBit w2 with
        | true => exact .invalid .lenNotClean fun _ => tryDecodeFrame_byteTwoNotClean h0 h1 h2
        | false =>
          rw [header_eq_headerOf h0 h1 h2]
          exact .header _ _ r

/-- Settles O29: an invalid header stays where it is, and a payload that is there is taken from the front. -/
theorem bufferDecisionsSurviveMoreBytes : Obligations.BufferDecisionsSurviveMoreBytes := by
  intro buf more hne
  cases shape buf with
  | undecided h => exact absurd h hne
  | invalid c h => rw [h more, ← h [], List.append_nil]
  | header id L r =>
    rw [List.append_assoc, tryDecodeFrame_headerOf, tryDecodeFrame_headerOf]
    by_cases hshort : L.toNat < 3
    · rw [if_pos hshort, if_pos hshort]
    by_cases hfew : r.length + 3 < L.toNat
    · rw [tryDecodeFrame_headerOf, if_neg hshort, if_pos hfew] at hne
      exact absurd rfl hne
    · have hall : ¬ (r ++ more).length + 3 < L.toNat := by
        rw [List.length_append]
        omega
      rw [if_neg hshort, if_neg hshort, if_neg hall, if_neg hfew, List.take_append_of_le_length (by omega)]

/-- A completed frame has at least its header (R75). -/
theorem three_le_of_complete {buf : List Byte} {f : Frame} {k : Nat} (h : tryDecodeFrame buf = .complete f k) : 3 ≤ k := by
  cases shape buf with
  | undecided hu => cases hu.symm.trans h
  | invalid c hc => cases ((hc []).symm.trans (by rw [List.append_nil])).trans h
  | header id L r =>
    rw [tryDecodeFrame_headerOf] at h
    split_ifs at h with hshort
    cases h
    omega

/-! ### The rounds of `decode_all` -/

section Rounds

variable {buf : List Byte}

theorem length_resync_le (buf : List Byte) : (resync buf).length ≤ buf.length - 1 :=
  (List.length_dropWhile_le _ _).trans_eq List.length_tail

theorem decodeRounds_nil (n : Nat) : decodeRounds n [] = ([], []) := by
  cases n with
  | zero => rfl
  | succ n => rfl

/-- Every round but the last consumes a byte, so any bound from the number of bytes on gives the same (log 21). -/
theorem decodeRounds_eq_of_length_le {n m : Nat} (hn : buf.length ≤ n) (hm : buf.length ≤ m) :
    decodeRounds n buf = decodeRounds m buf := by
  induction n generalizing m buf with
  | zero => rw [List.eq_nil_of_length_eq_zero (Nat.le_zero.1 hn), decodeRounds_nil, decodeRounds_nil]
  | succ n ih =>
    cases m with
    | zero => rw [List.eq_nil_of_length_eq_zero (Nat.le_zero.1 hm), decodeRounds_nil, decodeRounds_nil]
    | succ m =>
      cases htry : tryDecodeFrame buf with
      | incomplete => simp only [decodeRounds, htry]
      | invalid c =>
        have hlen := length_resync_le buf
        simp only [decodeRounds, htry, ih (m := m) (buf := resync buf) (by omega) (by omega)]
      | complete f k =>
        have hk := three_le_of_complete htry
        have hlen := List.length_drop (i := k) (l := buf)
        simp only [decodeRounds, htry, ih (m := m) (buf := buf.drop k) (by omega) (by omega)]

/-- One more round than there are bytes changes nothing. -/
theorem decodeAll_eq_decodeRounds_succ (buf : List Byte) : decodeAll buf = decodeRounds (buf.length + 1) buf :=
  decodeRounds_eq_of_length_le le_rfl (Nat.le_succ _)

theorem decodeAll_incomplete (h : tryDecodeFrame buf = .incomplete) : decodeAll buf = ([], buf) := by
  simp only [decodeAll_eq_decodeRounds_succ, decodeRounds, h]

theorem decodeAll_invalid {c : Cause} (h : tryDecodeFrame buf = .invalid c) :
    decodeAll buf = (.invalid c :: (decodeAll (resync buf)).1, (decodeAll (resync buf)).2) := by
  have hlen := length_resync_le buf
  have hrest : decodeRounds buf.length (resync buf) = decodeAll (resync buf) :=
    decodeRounds_eq_of_length_le (by omega) le_rfl
  simp only [decodeAll_eq_decodeRounds_succ buf, decodeRounds, h, hrest]

theorem decodeAll_complete {f : Frame} {k : Nat} (h : tryDecodeFrame buf = .complete f k) :
    decodeAll buf = (.delivered f (dispatch f) :: (decodeAll (buf.drop k)).1, (decodeAll (buf.drop k)).2) := by
  have hlen := List.length_drop (i := k) (l := buf)
  have hrest : decodeRounds buf.length (buf.drop k) = decodeAll (buf.drop k) :=
    decodeRounds_eq_of_length_le (by omega) le_rfl
  simp only [decodeAll_eq_decodeRounds_succ buf, decodeRounds, h, hrest]

end Rounds

end Sys2Proof.Buffer
end

section
/-! PROOFS. Frames as they are sent (spec/41_frame_encoder.md R86 to R94): the header of a frame carries its size, and the
length halves reassemble to it. -/

namespace Sys2Proof.FrameShape

open Sys2Proof Sys2Proof.Machine

/-- R86, R87: a 14-bit length is its two halves. -/
theorem halves_reassemble {n : Nat} (hn : n ≤ 0x3FFF) : ((llhSeven n).toNat <<< 7) ||| (lllSeven n).toNat = n := by
  have hlow : (lllSeven n).toNat < 2 ^ 7 := by
    rw [lllSeven_toNat]
    exact Nat.mod_lt n (by decide)
  rw [← Nat.shiftLeft_add_eq_or_of_lt hlow, Nat.shiftLeft_eq, llhSeven_toNat, lllSeven_toNat]
  omega

/-- Settles O30. -/
theorem lengthHalvesReassemble : Obligations.LengthHalvesReassemble :=
  ⟨fun n => ⟨llhSeven_toNat n, lllSeven_toNat n, Codec.highBit_llhSeven n, Codec.highBit_lllSeven n⟩,
    fun _ => halves_reassemble⟩

/-- Settles O32: `TXF` answers bytes only for a payload that fits, and then the encoded frame (R88, R90). -/
theorem txfOutputHasAFrameHeader : Obligations.TxfOutputHasAFrameHeader := by
  intro id payload seq s t h hout
  rcases lt_or_ge Config.maxPayload payload.length with hlong | hfit
  · obtain rfl := Host.Outcome.next.inj ((FrameEncoder.execTxf_of_tooLong hlong id s).symm.trans h)
    cases hout
  · obtain rfl := Host.Outcome.next.inj ((FrameEncoder.execTxf_of_fits hfit id s).symm.trans h)
    cases hout
    refine ⟨headerByte id, llhSeven (payload.length + 3), lllSeven (payload.length + 3), rfl, highBit_headerByte id,
      Codec.highBit_llhSeven _, Codec.highBit_lllSeven _, ?_, Nat.le_add_left 3 payload.length⟩
    exact (halves_reassemble (Nat.add_le_add_right hfit 3)).symm

end Sys2Proof.FrameShape
end

section
/-! PROOFS. Whole frames on the receive stream (spec/40_frame_decoder.md R67 to R74): the header from any state that awaits one,
then the payload by induction on the bytes still to come. The statements about frames are this one run, whoever presents the
bytes. -/

namespace Sys2Proof.WholeFrames

open Sys2Proof Sys2Proof.Machine Sys2Proof.Receiver

/-! ### Writing a run of cells -/

/-- The buffer after the bytes of a list are written from cell `a` on. -/
def writeRun : Memory → Nat → List Byte → Memory
  | m, _, [] => m
  | m, a, d :: ds => writeRun (m.write a d) (a + 1) ds

theorem read_writeRun_outside (m : Memory) {a j : Nat} {ds : List Byte} (h : j < a ∨ a + ds.length ≤ j) :
    (writeRun m a ds).read j = m.read j := by
  induction ds generalizing m a with
  | nil => rfl
  | cons d ds ih =>
    rw [List.length_cons] at h
    rw [writeRun, ih _ (by omega), Memory.read_write_other _ _ _ _ (by omega)]

theorem read_writeRun_inside (m : Memory) (a : Nat) {j : Nat} {ds : List Byte} (h : j < ds.length) :
    (writeRun m a ds).read (a + j) = ds[j]? := by
  induction ds generalizing m a j with
  | nil => exact absurd h (Nat.not_lt_zero j)
  | cons d ds ih =>
    cases j with
    | zero =>
      exact (read_writeRun_outside _ (.inl (Nat.lt_add_one a))).trans (Memory.read_write_same m a d)
    | succ j =>
      rw [writeRun, show a + (j + 1) = a + 1 + j by omega, ih _ _ (Nat.lt_of_succ_lt_succ h), List.getElem?_cons_succ]

/-! ### The payload -/

/-- The state after a frame has been received from `s`, whose buffer is then `m`. -/
def delivered (s : State) (f : Frame) (m : Memory) : State :=
  { s with rxState := .idle, rxId := f.id, rxLen := f.length, rxCnt := 0, rxBuf := m,
           out := List.replicate (f.length.toNat - s.rxCnt.toNat - 1) .nothing ++ [.delivered f (dispatch f)],
           hostSent := [] }

/-- The bytes that complete a payload are stored in their cells and delivered after those received before (R73, R74). -/
theorem rxBytes_payload {s : State} {bs : List Byte} (hs : s.rxState = .payload) (hlo : 3 ≤ s.rxCnt.toNat)
    (hw : Written s.rxBuf (s.rxCnt.toNat - 3)) (hne : bs ≠ []) (hlen : s.rxCnt.toNat + bs.length = s.rxLen.toNat) :
    rxBytes bs s =
      .next (delivered s ⟨s.rxId, s.rxLen, cells s.rxBuf (s.rxCnt.toNat - 3) ++ bs⟩
        (writeRun s.rxBuf (s.rxCnt.toNat - 3) bs)) := by
  induction bs generalizing s with
  | nil => exact absurd rfl hne
  | cons d bs ih =>
    rw [List.length_cons] at hlen
    rw [rxBytes_cons]
    by_cases hbs : bs = []
    · subst hbs
      have hlast : s.rxCnt.toNat + 1 = s.rxLen.toNat := hlen
      rw [rxByte_of_rxRule (.deliver hs hlo hlast hw), andThen_next _ _ (rxBytes_nil _)]
      have hnone : s.rxLen.toNat - s.rxCnt.toNat - 1 = 0 := by omega
      simp only [delivered, hnone]
      rfl
    · have hpos : 0 < bs.length := List.length_pos_iff.2 hbs
      have hcnt : (s.rxCnt + 1).toNat = s.rxCnt.toNat + 1 :=
        FrameDecoder.succ_toNat_of_lt (show s.rxCnt.toNat < s.rxLen.toNat by omega)
      have hcell : s.rxCnt.toNat + 1 - 3 = s.rxCnt.toNat - 3 + 1 := by omega
      have hcount : s.rxLen.toNat - s.rxCnt.toNat - 1 = s.rxLen.toNat - (s.rxCnt.toNat + 1) - 1 + 1 := by omega
      have hmore : s.rxCnt.toNat + 1 < s.rxLen.toNat := by omega
      have hrest := ih (s := { s with rxBuf := s.rxBuf.write (s.rxCnt.toNat - 3) d, rxCnt := s.rxCnt + 1 }.answer .nothing)
        hs (by rw [State.answer_rxCnt, hcnt]; omega)
        (by
          simp only [State.answer_rxCnt, State.answer_rxBuf, hcnt, hcell]
          exact FrameDecoder.written_write_succ d hw)
        hbs (by simp only [State.answer_rxCnt, State.answer_rxLen, hcnt]; omega)
      rw [rxByte_of_rxRule (.store hs hlo hmore hw), andThen_next _ _ hrest]
      simp only [delivered, State.withEarlier, State.answer, hcnt, hcell, hcount, cells_write_succ, writeRun,
        List.append_assoc, List.replicate_succ, List.cons_append, List.nil_append]

/-! ### The header -/

def afterHeaderByte (id : MsgId) (s : State) : State :=
  { s with rxState := .lenHi, rxId := id, rxCnt := 1 }.answer .nothing

def afterLengthHigh (id : MsgId) (L : Len) (s : State) : State :=
  { s with rxState := .lenLo, rxId := id, rxLen := lenHigh (llhSeven L.toNat), rxCnt := 2 }.answer .nothing

def afterHeader (id : MsgId) (L : Len) (s : State) : State :=
  { s with rxState := .payload, rxId := id, rxLen := L, rxCnt := 3 }.answer .nothing

section Header

variable {id : MsgId} {L : Len} {s u : State} {payload : List Byte}

theorem rxByte_headerByte (hs : s.rxState = .idle ∨ s.rxState = .hunt) :
    rxByte (headerByte id) s = .next (afterHeaderByte id s) := by
  rw [FrameDecoder.rxByte_of_awaiting hs (highBit_headerByte id), State.startFrame, low7_headerByte]
  rfl

theorem rxByte_llhSeven : rxByte (llhSeven L.toNat) (afterHeaderByte id s) = .next (afterLengthHigh id L s) :=
  FrameDecoder.rxByte_lenHi_clean rfl (Codec.highBit_llhSeven L.toNat)

/-- The second length byte completes the length of the frame (R72). -/
theorem afterLengthHigh_or_lenLow : (afterLengthHigh id L s).rxLen ||| lenLow (lllSeven L.toNat) = L :=
  Codec.lenHigh_or_lenLow L

/-- A third byte after which a payload follows. -/
theorem rxByte_lllSeven (hL : 3 < L.toNat) :
    rxByte (lllSeven L.toNat) (afterLengthHigh id L s) = .next (afterHeader id L s) := by
  rw [FrameDecoder.rxByte_lenLo_payload rfl (Codec.highBit_lllSeven L.toNat) (afterLengthHigh_or_lenLow.symm ▸ hL),
    afterLengthHigh_or_lenLow]
  rfl

/-- The first two bytes of a frame answer nothing (R67, R70); what it comes to is decided from there. -/
theorem receiveFrame_of_rest (hs : s.rxState = .idle ∨ s.rxState = .hunt)
    (hrest : rxBytes (lllSeven L.toNat :: payload) (afterLengthHigh id L s) = .next u) :
    receiveFrame id L payload s = .next { u with out := .nothing :: .nothing :: u.out } :=
  (andThen_eq_next_iff _ _ _).2
    ⟨_, _, rxByte_headerByte hs, (andThen_eq_next_iff _ _ _).2 ⟨_, u, rxByte_llhSeven, hrest, rfl⟩, rfl⟩

/-- R72, a length below 3: the third byte is refused. -/
theorem receiveFrame_short (hs : s.rxState = .idle ∨ s.rxState = .hunt) (hL : L.toNat < 3) :
    receiveFrame id L [] s =
      .next { s with rxState := .hunt, rxId := id, rxLen := lenHigh (llhSeven L.toNat), rxCnt := 0,
                     out := [.nothing, .nothing, .frameInvalid .lenRange 3], hostSent := [] } := by
  have hthird := FrameDecoder.rxByte_lenLo_short (s := afterLengthHigh id L s) rfl (Codec.highBit_lllSeven L.toNat)
    (afterLengthHigh_or_lenLow.symm ▸ hL)
  rw [receiveFrame_of_rest hs ((andThen_eq_next_iff _ _ _).2 ⟨_, _, hthird, rxBytes_nil _, rfl⟩)]
  rfl

/-- So short a length has no high half. -/
theorem lenHigh_llhSeven_of_lt (hL : L.toNat < 3) : lenHigh (llhSeven L.toNat) = 0 := by
  apply BitVec.eq_of_toNat_eq
  rw [FrameDecoder.lenHigh_toNat (Codec.highBit_llhSeven _), llhSeven_toNat, Nat.div_eq_of_lt (by omega)]
  rfl

/-- A frame whose payload fits is delivered, and its payload is written from cell 0 (R73, R74). -/
theorem receiveFrame_of_fits (hs : s.rxState = .idle ∨ s.rxState = .hunt) (hfit : payload.length + 3 = L.toNat) :
    receiveFrame id L payload s =
      .next { s with rxState := .idle, rxId := id, rxLen := L, rxCnt := 0, rxBuf := writeRun s.rxBuf 0 payload,
                     out := List.replicate (payload.length + 2) .nothing ++
                       [.delivered ⟨id, L, payload⟩ (dispatch ⟨id, L, payload⟩)],
                     hostSent := [] } := by
  by_cases hempty : payload = []
  · subst hempty
    have hL : L.toNat = 3 := hfit.symm
    have hthird := FrameDecoder.rxByte_lenLo_empty (s := afterLengthHigh id L s) rfl (Codec.highBit_lllSeven L.toNat)
      (afterLengthHigh_or_lenLow.symm ▸ hL)
    rw [afterLengthHigh_or_lenLow] at hthird
    rw [receiveFrame_of_rest hs ((andThen_eq_next_iff _ _ _).2 ⟨_, _, hthird, rxBytes_nil _, rfl⟩)]
    rfl
  · have hpos : 0 < payload.length := List.length_pos_iff.2 hempty
    have hnone : Written s.rxBuf 0 := fun a ha => absurd ha (Nat.not_lt_zero a)
    have hpayload := rxBytes_payload (s := afterHeader id L s) rfl le_rfl hnone hempty
      ((Nat.add_comm 3 payload.length).trans hfit)
    rw [receiveFrame_of_rest hs
      ((andThen_eq_next_iff _ _ _).2 ⟨_, _, rxByte_lllSeven (by omega), hpayload, rfl⟩)]
    have hcount : payload.length + 2 = L.toNat - 3 - 1 + 1 + 1 + 1 := by omega
    rw [hcount, List.replicate_succ, List.replicate_succ, List.replicate_succ]
    rfl

end Header

/-! ### The MSG rows -/

/-- The twelve MSG constructors with the ids of R57. -/
def msgRows : List (MsgId × (Len → List Byte → Instr)) :=
  [(0x06, Instr.msgBoardDump), (0x0d, Instr.msgBwtime), (0x0e, Instr.msgFieldUpdate), (0x0f, Instr.msgEeMoves),
    (0x10, Instr.msgBusAddress), (0x11, Instr.msgSerialNumber), (0x12, Instr.msgTrademark), (0x13, Instr.msgVersion),
    (0x14, Instr.msgBoardDump50Black), (0x15, Instr.msgBoardDump50White), (0x20, Instr.msgBatteryStatus),
    (0x22, Instr.msgLongSerial)]

/-- Each is the frame of its own id (log 5). -/
theorem exec_msgRow (L : Len) (payload : List Byte) (s : State) :
    ∀ row ∈ msgRows, exec (row.2 L payload) s = receiveFrame row.1 L payload s := by
  simp only [msgRows, List.forall_mem_cons]
  exact ⟨rfl, rfl, rfl, rfl, rfl, rfl, rfl, rfl, rfl, rfl, rfl, rfl, List.forall_mem_nil _⟩

/-- Settles O25: the run of the whole frame, with its buffer read cell by cell. -/
theorem wholeFramesAreDelivered : Obligations.WholeFramesAreDelivered := by
  intro row hrow L payload s hfit hs
  refine ⟨writeRun s.rxBuf 0 payload, ?_, fun j hj => ?_, fun j hj => ?_⟩
  · rw [exec_msgRow L payload s row hrow, receiveFrame_of_fits hs hfit]
  · rw [← read_writeRun_inside s.rxBuf 0 hj, Nat.zero_add]
  · exact read_writeRun_outside s.rxBuf (.inr (by omega))

/-- Settles O26: the run of a header that carries a length below 3. -/
theorem shortFramesAreInvalid : Obligations.ShortFramesAreInvalid := by
  intro row hrow L s hL hs
  rw [exec_msgRow L [] s row hrow, receiveFrame_short hs hL, lenHigh_llhSeven_of_lt hL]

/-! ### The round trip -/

section RoundTrip

variable {id : MsgId} {L : Len} {payload : List Byte}

/-- What `encode_frame` builds is a clean header with the frame's own length, then the payload (R93). -/
theorem encodeFrame_eq_headerOf (hfit : payload.length + 3 = L.toNat) :
    encodeFrame id payload = headerOf id L.toNat ++ payload := by
  rw [encodeFrame, ← hfit]

theorem tryDecodeFrame_encodeFrame (hfit : payload.length + 3 = L.toNat) :
    tryDecodeFrame (encodeFrame id payload) = .complete ⟨id, L, payload⟩ L.toNat := by
  rw [encodeFrame_eq_headerOf hfit, Buffer.tryDecodeFrame_headerOf, if_neg (by omega), if_neg (by omega),
    List.take_of_length_le (by omega)]

/-- A part of a header decides nothing. -/
theorem tryDecodeFrame_take_headerOf {k : Nat} (hk : k < 3) (n : Nat) :
    tryDecodeFrame ((headerOf id n).take k) = .incomplete := by
  match k, hk with
  | 0, _ => rfl
  | 1, _ => exact Buffer.tryDecodeFrame_one (highBit_headerByte id)
  | 2, _ => exact Buffer.tryDecodeFrame_two (highBit_headerByte id) (Codec.highBit_llhSeven n)

/-- A part of a frame is never taken for a whole one. -/
theorem tryDecodeFrame_take_encodeFrame (hfit : payload.length + 3 = L.toNat) {k : Nat} (hk : k < L.toNat) :
    tryDecodeFrame ((encodeFrame id payload).take k) = .incomplete := by
  have hheader : (headerOf id L.toNat).length = 3 := rfl
  rw [encodeFrame_eq_headerOf hfit, List.take_append, hheader]
  rcases lt_or_ge k 3 with hlt | hge
  · rw [Nat.sub_eq_zero_of_le hlt.le, List.take_zero, List.append_nil]
    exact tryDecodeFrame_take_headerOf hlt _
  · rw [List.take_of_length_le (hheader.trans_le hge), Buffer.tryDecodeFrame_headerOf, if_neg (by omega), if_pos]
    rw [List.length_take]
    omega

end RoundTrip

/-- Settles O24: the encoded frame is a frame whose payload fits, for the buffer and for the stream. -/
theorem encodedFramesRoundTrip : Obligations.EncodedFramesRoundTrip := by
  rintro id payload f hlen rfl
  have hfit : payload.length + 3 = (BitVec.ofNat 14 (payload.length + 3)).toNat := by
    rw [BitVec.toNat_ofNat]
    omega
  refine ⟨?_, fun k hk => tryDecodeFrame_take_encodeFrame hfit (hfit ▸ hk), fun s hs => ?_⟩
  · rw [tryDecodeFrame_encodeFrame hfit, ← hfit]
  · rw [execList_rxs, encodeFrame_eq_headerOf hfit]
    exact ⟨_, receiveFrame_of_fits hs hfit, rfl, rfl⟩

end Sys2Proof.WholeFrames
end

section
/-! PROOFS. The hardware form and the buffer-level contract are one decoder (spec/40_frame_decoder.md section 3): the receive
state stands for the bytes of the frame it has taken so far, and each rule of `RXB` is what `decode_all` makes of those bytes
and the next. -/

namespace Sys2Proof.DecodeAll

open Sys2Proof Sys2Proof.Machine Sys2Proof.Receiver Sys2Proof.Buffer

/-! ### The bytes a state has taken -/

/-- The bytes of the pending frame: as much of its header and payload as `rx_cnt` counts. -/
def held (s : State) : List Byte :=
  (headerOf s.rxId s.rxLen.toNat).take s.rxCnt.toNat ++ cells s.rxBuf (s.rxCnt.toNat - 3)

theorem held_length (s : State) : (held s).length = s.rxCnt.toNat := by
  have hheader : (headerOf s.rxId s.rxLen.toNat).length = 3 := rfl
  rw [held, List.length_append, List.length_take, cells_length, hheader]
  omega

section Held

variable {s : State}

theorem held_of_zero (h : s.rxCnt = 0) : held s = [] :=
  List.eq_nil_of_length_eq_zero ((held_length s).trans (congrArg BitVec.toNat h))

theorem held_of_one (h : s.rxCnt = 1) : held s = [headerByte s.rxId] := by
  rw [held, h]
  rfl

theorem held_of_two (h : s.rxCnt = 2) : held s = [headerByte s.rxId, llhSeven s.rxLen.toNat] := by
  rw [held, h]
  rfl

theorem held_of_header (h : 3 ≤ s.rxCnt.toNat) :
    held s = headerOf s.rxId s.rxLen.toNat ++ cells s.rxBuf (s.rxCnt.toNat - 3) := by
  rw [held, List.take_of_length_le h]

end Held

/-! ### The length between its two bytes (R21, row `LEN_LO`) -/

/-- A length with an empty low half is its own high half. -/
theorem lenHigh_llhSeven {L : Len} (h : L.toNat % 128 = 0) : lenHigh (llhSeven L.toNat) = L := by
  apply BitVec.eq_of_toNat_eq
  have hL := L.isLt
  rw [FrameDecoder.lenHigh_toNat (Codec.highBit_llhSeven _), llhSeven_toNat]
  omega

/-- The clean second byte completes such a length to one with these two halves. -/
theorem headerOf_complete {id : MsgId} {L : Len} {d : Byte} (h : L.toNat % 128 = 0) (hd : highBit d = false) :
    headerOf id (L ||| lenLow d).toNat = [headerByte id, llhSeven L.toNat, d] := by
  have hclean := Codec.highBit_llhSeven L.toNat
  rw [← lenHigh_llhSeven h, headerOf, Codec.llhSeven_assemble hclean hd, Codec.lllSeven_assemble hclean hd,
    lenHigh_llhSeven h]

/-- The clean first byte is the high half of the length it begins. -/
theorem llhSeven_lenHigh {d : Byte} (hd : highBit d = false) : llhSeven (lenHigh d).toNat = d := by
  apply BitVec.eq_of_toNat_eq
  rw [llhSeven_toNat, FrameDecoder.lenHigh_toNat hd]
  rw [highBit_eq_decide, decide_eq_false_iff_not] at hd
  omega

/-! ### What `decode_all` still has to look at -/

/-- In `HUNT` the bytes in front without a high bit are dropped; otherwise the bytes taken stand before those to come. -/
def view (s : State) (ds : List Byte) : List Byte :=
  if s.rxState = .hunt then ds.dropWhile fun d => !highBit d else held s ++ ds

section View

variable {s t : State} {d : Byte} {ds : List Byte}

theorem view_hunt (hs : s.rxState = .hunt) : view s ds = ds.dropWhile fun d => !highBit d := if_pos hs

theorem view_of_ne_hunt (hs : s.rxState ≠ .hunt) : view s ds = held s ++ ds := if_neg hs

theorem view_awaiting_high (hrow : s.rxRow) (hs : s.rxState = .idle ∨ s.rxState = .hunt) (hd : highBit d = true) :
    view s (d :: ds) = d :: ds := by
  obtain hidle | hhunt := hs
  · rw [view_of_ne_hunt (by rw [hidle]; exact nofun), held_of_zero ((rxRow_idle hidle).1 hrow), List.nil_append]
  · rw [view_hunt hhunt, List.dropWhile_cons_of_neg (by simp [hd])]

theorem view_lenHi (hs : s.rxState = .lenHi) (hcnt : s.rxCnt = 1) : view s ds = headerByte s.rxId :: ds := by
  rw [view_of_ne_hunt (by rw [hs]; exact nofun), held_of_one hcnt]
  rfl

theorem view_lenLo (hs : s.rxState = .lenLo) (hcnt : s.rxCnt = 2) :
    view s ds = headerByte s.rxId :: llhSeven s.rxLen.toNat :: ds := by
  rw [view_of_ne_hunt (by rw [hs]; exact nofun), held_of_two hcnt]
  rfl

theorem view_payload (hs : s.rxState = .payload) (hlo : 3 ≤ s.rxCnt.toNat) :
    view s ds = headerOf s.rxId s.rxLen.toNat ++ (cells s.rxBuf (s.rxCnt.toNat - 3) ++ ds) := by
  rw [view_of_ne_hunt (by rw [hs]; exact nofun), held_of_header hlo, List.append_assoc]

/-- With nothing more to come `decode_all` has nothing to decide, and what is pending is what the state has taken. -/
theorem decodeAll_view_nil (hs : s.Inv) : decodeAll (view s []) = ([], held s) := by
  obtain ⟨-, hrow⟩ := hs
  cases hstate : s.rxState with
  | idle =>
    rw [view_of_ne_hunt (by rw [hstate]; exact nofun), held_of_zero ((rxRow_idle hstate).1 hrow)]
    rfl
  | hunt =>
    rw [view_hunt hstate, held_of_zero ((rxRow_hunt hstate).1 hrow)]
    rfl
  | lenHi =>
    rw [view_lenHi hstate ((rxRow_lenHi hstate).1 hrow), held_of_one ((rxRow_lenHi hstate).1 hrow)]
    exact decodeAll_incomplete (tryDecodeFrame_one (highBit_headerByte _))
  | lenLo =>
    rw [view_lenLo hstate ((rxRow_lenLo hstate).1 hrow).1, held_of_two ((rxRow_lenLo hstate).1 hrow).1]
    exact decodeAll_incomplete (tryDecodeFrame_two (highBit_headerByte _) (Codec.highBit_llhSeven _))
  | payload =>
    obtain ⟨hlo, hhi, -⟩ := (rxRow_payload hstate).1 hrow
    rw [view_payload hstate hlo, List.append_nil, held_of_header hlo]
    refine decodeAll_incomplete ?_
    rw [tryDecodeFrame_headerOf, cells_length, if_neg (by omega), if_pos (by omega)]

/-- The events of a run (R77). -/
def events (os : List Output) : List Event := os.filterMap outputEvent

/-- What `decode_all` gives when `es` is emitted before what it makes of `buf`. -/
def emitting (es : List Event) (buf : List Byte) : List Event × List Byte := (es ++ (decodeAll buf).1, (decodeAll buf).2)

/-- R183 and R76: under an error row the buffer is invalid with the row's cause, and what `resync` leaves is what the parser
goes on with. -/
theorem decodeAll_view_of_invalidRow {c : Cause} {k : Nat} {r : Resync} (hrow : s.rxRow)
    (h : Exceptions.InvalidRow s d c k r) :
    decodeAll (view s (d :: ds)) = emitting [.invalid c] (view (s.raise (.frameInvalid c k) r) ds) := by
  cases h with
  | notStart hs hd =>
    rw [view_of_ne_hunt (by rw [hs]; exact nofun), held_of_zero ((rxRow_idle hs).1 hrow), List.nil_append,
      decodeAll_invalid (tryDecodeFrame_notStart hd), FrameDecoder.resync_cons]
    rfl
  | lenHiNotClean hs hd =>
    rw [view_lenHi hs ((rxRow_lenHi hs).1 hrow), decodeAll_invalid (tryDecodeFrame_byteOneNotClean (highBit_headerByte _) hd),
      FrameDecoder.resync_cons, List.dropWhile_cons_of_neg (by simp [hd]), view_lenHi rfl rfl, State.raise_rxId,
      State.resync_restart_rxId, Codec.headerByte_low7 d hd]
    rfl
  | lenLoNotClean hs hd =>
    obtain ⟨hcnt, -⟩ := (rxRow_lenLo hs).1 hrow
    have hclean := Codec.highBit_llhSeven s.rxLen.toNat
    rw [view_lenLo hs hcnt, decodeAll_invalid (tryDecodeFrame_byteTwoNotClean (highBit_headerByte _) hclean hd),
      FrameDecoder.resync_cons, List.dropWhile_cons_of_pos (by simp [hclean]),
      List.dropWhile_cons_of_neg (by simp [hd]), view_lenHi rfl rfl, State.raise_rxId, State.resync_restart_rxId,
      Codec.headerByte_low7 d hd]
    rfl
  | lenRange hs hd hL =>
    have hclean := Codec.highBit_llhSeven s.rxLen.toNat
    obtain ⟨hcnt, hlen⟩ := (rxRow_lenLo hs).1 hrow
    have htry : tryDecodeFrame (headerByte s.rxId :: llhSeven s.rxLen.toNat :: d :: ds) = .invalid .lenRange := by
      have hheader := tryDecodeFrame_headerOf s.rxId (s.rxLen ||| lenLow d) ds
      rwa [if_pos hL, headerOf_complete hlen hd] at hheader
    rw [view_lenLo hs hcnt, decodeAll_invalid htry, FrameDecoder.resync_cons,
      List.dropWhile_cons_of_pos (by simp [hclean]), List.dropWhile_cons_of_pos (by simp [hd])]
    rfl

/-- Every rule of `RXB` is a step of `decode_all`: it emits the rule's event, if there is one, and goes on with what the state
after stands for. -/
theorem decodeAll_view_of_rxRule (hs : s.Inv) (h : RxRule s d t) :
    decodeAll (view s (d :: ds)) = emitting (events t.out) (view t ds) := by
  obtain ⟨-, hrow⟩ := hs
  cases h with
  | start hs hd =>
    have hview : view ((s.startFrame d).answer .nothing) ds = d :: ds := by
      rw [view_lenHi rfl rfl, State.answer_rxId, State.startFrame_rxId, Codec.headerByte_low7 d hd]
    rw [view_awaiting_high hrow hs hd, hview]
    rfl
  | skip hs hd =>
    rw [view_hunt hs, view_hunt (s := s.answer .skipped) hs, List.dropWhile_cons_of_pos (by simp [hd])]
    rfl
  | invalid hinv => exact decodeAll_view_of_invalidRow hrow hinv
  | lengthHigh hs hd =>
    rw [view_lenHi hs ((rxRow_lenHi hs).1 hrow), view_lenLo rfl rfl, State.answer_rxLen, llhSeven_lenHigh hd]
    rfl
  | lengthEmpty hs hd hL =>
    obtain ⟨hcnt, hlen⟩ := (rxRow_lenLo hs).1 hrow
    have htry := tryDecodeFrame_headerOf s.rxId (s.rxLen ||| lenLow d) ds
    rw [hL, if_neg (lt_irrefl 3), if_neg (by omega), Nat.sub_self, List.take_zero, ← hL, headerOf_complete hlen hd, hL]
      at htry
    rw [view_lenLo hs hcnt]
    exact decodeAll_complete htry
  | lengthLow hs hd hL =>
    obtain ⟨hcnt, hlen⟩ := (rxRow_lenLo hs).1 hrow
    rw [view_lenLo hs hcnt, view_payload rfl le_rfl, State.answer_rxLen, headerOf_complete hlen hd]
    rfl
  | store hs hlo hmore hw =>
    have hcnt := FrameDecoder.succ_toNat_of_lt (show s.rxCnt.toNat < s.rxLen.toNat by omega)
    have hcell : s.rxCnt.toNat + 1 - 3 = s.rxCnt.toNat - 3 + 1 := by omega
    rw [view_payload hs hlo, view_payload (by exact hs) (by rw [State.answer_rxCnt, hcnt]; omega)]
    simp only [State.answer_rxId, State.answer_rxLen, State.answer_rxCnt, State.answer_rxBuf, hcnt, hcell,
      cells_write_succ, List.append_assoc, List.singleton_append]
    rfl
  | deliver hs hlo hlast hw =>
    have hpayload : (cells s.rxBuf (s.rxCnt.toNat - 3) ++ [d]).length = s.rxLen.toNat - 3 := by
      rw [List.length_append, cells_length, List.length_singleton]
      omega
    have hsplit : cells s.rxBuf (s.rxCnt.toNat - 3) ++ d :: ds = (cells s.rxBuf (s.rxCnt.toNat - 3) ++ [d]) ++ ds := by
      rw [List.append_assoc, List.singleton_append]
    have hdrop : (headerOf s.rxId s.rxLen.toNat ++ ((cells s.rxBuf (s.rxCnt.toNat - 3) ++ [d]) ++ ds)).drop
        s.rxLen.toNat = ds := by
      rw [← List.append_assoc]
      refine List.drop_left' ?_
      rw [List.length_append, hpayload]
      exact (Nat.add_comm 3 _).trans (Nat.sub_add_cancel (by omega))
    have htry := tryDecodeFrame_headerOf s.rxId s.rxLen ((cells s.rxBuf (s.rxCnt.toNat - 3) ++ [d]) ++ ds)
    rw [if_neg (by omega), if_neg (by rw [List.length_append, hpayload]; omega), List.take_left' hpayload] at htry
    rw [view_payload hs hlo, hsplit, decodeAll_complete htry, hdrop]
    rfl

/-- A run of bytes is the whole of `decode_all`. -/
theorem decodeAll_view_of_rxBytes (hs : s.Inv) (h : rxBytes ds s = .next t) :
    decodeAll (view s ds) = (events t.out, held t) := by
  induction ds generalizing s t with
  | nil =>
    cases h
    exact decodeAll_view_nil hs
  | cons d ds ih =>
    obtain ⟨u, v, hu, hv, rfl⟩ := (andThen_eq_next_iff _ _ _).1 h
    obtain ⟨u', hrule⟩ := exists_rxRule hs d
    obtain rfl : u' = u := Host.Outcome.next.inj ((rxByte_of_rxRule hrule).symm.trans hu)
    rw [decodeAll_view_of_rxRule hs hrule, emitting, ih (inv_of_rxRule hs hrule) hv, State.withEarlier_out, events,
      events, events, List.filterMap_append]
    rfl

end View

/-- Outside `IDLE` and `HUNT` a byte has been taken (R21). -/
theorem rxCnt_eq_zero_iff {s : State} (hs : s.Inv) : s.rxCnt = 0 ↔ (s.rxState = .idle ∨ s.rxState = .hunt) := by
  refine ⟨fun hzero => ?_, fun hstate => (rxRow_awaiting hstate).1 hs.2⟩
  obtain ⟨-, hrow⟩ := hs
  cases hstate : s.rxState with
  | idle => exact .inl rfl
  | hunt => exact .inr rfl
  | lenHi => exact absurd (hzero.symm.trans ((rxRow_lenHi hstate).1 hrow)) (by decide)
  | lenLo => exact absurd (hzero.symm.trans ((rxRow_lenLo hstate).1 hrow).1) (by decide)
  | payload =>
    obtain ⟨hlo, -⟩ := (rxRow_payload hstate).1 hrow
    rw [hzero] at hlo
    exact absurd hlo (by decide)

/-- Settles O22: a state in sync has taken nothing, so its run is `decode_all` of the bytes themselves. -/
theorem rxsAgreesWithDecodeAll : Obligations.RxsAgreesWithDecodeAll := by
  intro s bs hs hidle
  obtain ⟨t, ht, hinv, -⟩ := exists_rxBytes hs bs
  have hview : view s bs = bs := by
    rw [view_of_ne_hunt (by rw [hidle]; exact nofun), held_of_zero ((rxRow_idle hidle).1 hs.2), List.nil_append]
  have hrun := decodeAll_view_of_rxBytes hs ht
  rw [hview] at hrun
  refine ⟨t, (execList_rxs bs s).trans ht, ?_, ?_, ?_⟩
  · rw [hrun, events]
  · rw [hrun]
    exact held_length t
  · rw [hrun, ← rxCnt_eq_zero_iff hinv, ← List.length_eq_zero_iff, held_length]
    exact BitVec.toNat_inj (y := 0)

end Sys2Proof.DecodeAll
end

section
/-! PROOFS. Sums of several bytes (spec/42_checksum.md R98 to R106): the checksum as the accumulator left by a run of `CSADD`,
what a sum modulo 128 can and cannot tell apart, and the envelope of a bus command. -/

namespace Sys2Proof.ChecksumRuns

open Sys2Proof Sys2Proof.Machine

/-! ### The accumulator over a run (R101) -/

/-- What a run of `CSADD` answers, from accumulator `acc`. -/
def runningSums : Sum7 → List Byte → List Output
  | _, [] => []
  | acc, d :: ds => .sum (checksumStep acc d) :: runningSums (checksumStep acc d) ds

theorem execList_csadds (bs : List Byte) (s : State) :
    execList (bs.map Instr.csadd) s =
      .next { s with csAcc := bs.foldl checksumStep s.csAcc, out := runningSums s.csAcc bs, hostSent := [] } := by
  induction bs generalizing s with
  | nil => rfl
  | cons d ds ih =>
    rw [List.map_cons, execList_cons, Checksum.exec_csadd, Checksum.execCsadd_eq, andThen_next _ _ (ih _)]
    rfl

theorem foldl_checksumStep_toNat (acc : Sum7) (bs : List Byte) :
    (bs.foldl checksumStep acc).toNat = (acc.toNat + byteSum bs) % 128 := by
  induction bs generalizing acc with
  | nil => exact (Nat.mod_eq_of_lt acc.isLt).symm
  | cons d ds ih =>
    have hsum : byteSum (d :: ds) = d.toNat + byteSum ds := List.sum_cons
    rw [List.foldl_cons, ih, Checksum.checksumStep_toNat, hsum, Nat.mod_add_mod, Nat.add_assoc]

theorem foldl_checksumStep_zero (bs : List Byte) : bs.foldl checksumStep 0 = checksum bs := by
  apply BitVec.eq_of_toNat_eq
  rw [foldl_checksumStep_toNat, Checksum.checksum_toNat]
  exact congrArg (· % 128) (Nat.zero_add _)

/-- `CSUM` from any state (R63, R101). -/
theorem execList_csum (bs : List Byte) (s : State) :
    execList (csum bs) s =
      .next { s with csAcc := checksum bs, out := .nothing :: runningSums 0 bs, hostSent := [] } := by
  rw [csum, execList_cons, Checksum.exec_csclr, Checksum.execCsclr_eq, andThen_next _ _ (execList_csadds bs _),
    ← foldl_checksumStep_zero]
  rfl

/-- The last answer of a run is what the accumulator holds after it. -/
theorem getLast?_runningSums (o : Output) (acc : Sum7) (d : Byte) (ds : List Byte) :
    (o :: runningSums acc (d :: ds)).getLast? = some (.sum ((d :: ds).foldl checksumStep acc)) := by
  rw [runningSums, List.getLast?_cons_cons]
  induction ds generalizing acc d with
  | nil => rfl
  | cons e ds ih =>
    rw [runningSums, List.getLast?_cons_cons, ih]
    rfl

theorem lastSum_csum (bs : List Byte) : lastSum (.nothing :: runningSums 0 bs) = checksum bs := by
  cases bs with
  | nil => rfl
  | cons d ds =>
    rw [lastSum, getLast?_runningSums, foldl_checksumStep_zero]
    exact nofun

/-- What `CSCHK c` answers of a checksum `v` (R100). -/
def verdict (v : Sum7) (c : Byte) : Output := if checksumMatches v c then .csOk else .checksumMismatch v c

theorem execList_cschk (c : Byte) (s : State) : execList [.cschk c] s = .next (s.answer (verdict s.csAcc c)) := by
  rw [execList_cons, Checksum.exec_cschk, Instructions.execCschk_eq, andThen_next _ _ (execList_nil _)]
  rfl

/-- `CSVERIFY` is `CSUM` and then the comparison (R63). -/
theorem execList_csverify (bs : List Byte) (c : Byte) (s : State) :
    ∃ t, execList (csverify bs c) s = .next t ∧ t.out.getLast? = some (verdict (checksum bs) c) := by
  refine ⟨_, (Sequences.sequencesCompose _ _ _ _).2 ⟨_, _, execList_csum bs s, execList_cschk c _, rfl⟩, ?_⟩
  exact List.getLast?_concat

/-- The comparison passes for the checksum byte and no other (R99, R100). -/
theorem checksumMatches_iff_eq_checksumByte (v : Sum7) (c : Byte) : checksumMatches v c = true ↔ c = checksumByte v :=
  beq_iff_eq

/-- Settles O37: the sums of the run and the comparison at its end. -/
theorem csumAndCsverifyComputeTheChecksum : Obligations.CsumAndCsverifyComputeTheChecksum := by
  refine fun s bs c => ⟨⟨_, execList_csum bs s, lastSum_csum bs, rfl⟩, ?_⟩
  obtain ⟨t, ht, hlast⟩ := execList_csverify bs c s
  refine ⟨t, ht, ?_⟩
  rw [hlast, verdict, ← checksumMatches_iff_eq_checksumByte]
  split_ifs with h
  · exact iff_of_true rfl h
  · exact iff_of_false nofun h

/-! ### What the sum tells apart (R98, R106) -/

theorem byteSum_append (xs ys : List Byte) : byteSum (xs ++ ys) = byteSum xs + byteSum ys := by
  rw [byteSum, List.map_append, List.sum_append]
  rfl

theorem byteSum_perm {xs ys : List Byte} (h : xs.Perm ys) : byteSum xs = byteSum ys := (h.map BitVec.toNat).sum_nat

/-- Modulo 128 only the low seven bits of each byte count. -/
theorem byteSum_mod_eq_sum_low7 (bs : List Byte) :
    byteSum bs % 128 = ((bs.map low7).map BitVec.toNat).sum % 128 := by
  induction bs with
  | nil => rfl
  | cons d ds ih =>
    have hd : (low7 d).toNat = d.toNat % 128 := BitVec.toNat_setWidth 7 d
    simp only [byteSum, List.map_cons, List.sum_cons] at ih ⊢
    omega

theorem checksum_eq_iff (xs ys : List Byte) : checksum xs = checksum ys ↔ byteSum xs % 128 = byteSum ys % 128 := by
  rw [← BitVec.toNat_inj, Checksum.checksum_toNat, Checksum.checksum_toNat]

/-- Between the same bytes, the sums agree only for bytes with the same low seven bits. -/
theorem low7_eq_of_checksum_eq {xs ys : List Byte} {d e : Byte} (h : checksum (xs ++ d :: ys) = checksum (xs ++ e :: ys)) :
    low7 d = low7 e := by
  have hcons : ∀ b : Byte, byteSum (b :: ys) = b.toNat + byteSum ys := fun b => List.sum_cons
  rw [checksum_eq_iff, byteSum_append, byteSum_append, hcons, hcons] at h
  apply BitVec.eq_of_toNat_eq
  rw [low7, low7, BitVec.toNat_setWidth, BitVec.toNat_setWidth]
  omega

/-- Settles O38: each clause is a fact about the sum modulo 128. -/
theorem whatTheChecksumDetects : Obligations.WhatTheChecksumDetects := by
  refine ⟨fun xs ys h => ?_, fun xs ys h => ?_, checksum_eq_iff, fun xs ys d e hne h => hne (low7_eq_of_checksum_eq h),
    fun xs ys => ?_⟩
  · rw [checksum_eq_iff, byteSum_perm h]
  · have hlow : xs.map low7 = ys.map low7 := h
    rw [checksum_eq_iff, byteSum_mod_eq_sum_low7, byteSum_mod_eq_sum_low7, hlow]
  · rw [Checksum.checksum_toNat, Checksum.checksum_toNat, Checksum.checksum_toNat, byteSum_append, ← Nat.add_mod]

/-! ### The bus envelope (R102, R103) -/

/-- An envelope closed with the checksum of what it covers checks. -/
theorem envelopeChecks_concat (covered : List Byte) :
    envelopeChecks (covered ++ [checksumByte (checksum covered)]) = true := by
  rw [envelopeChecks, List.getLast?_concat, List.dropLast_concat]
  exact (checksumMatches_iff_eq_checksumByte _ _).2 rfl

/-- The halves of a bus address give it back (D16, log 20). -/
theorem address_halves (address : BitVec 14) :
    128 * (addressHigh address).toNat + (addressLow address).toNat = address.toNat := by
  have haddress := address.isLt
  rw [addressHigh, addressLow, llhSeven_toNat, lllSeven_toNat]
  omega

/-- Settles O39: the four operations are `CSUM` of the three covered bytes, so the last sum is the command's own checksum. -/
theorem busCommandsCarryTheirChecksum : Obligations.BusCommandsCarryTheirChecksum := by
  intro s id address
  refine ⟨_, checksum [busCommandByte id, addressHigh address, addressLow address],
    execList_csum [busCommandByte id, addressHigh address, addressLow address] s, ?_, rfl, envelopeChecks_concat _,
    highBit_headerByte id, low7_headerByte id, fun b hb => ?_, address_halves address⟩
  · rw [getLast?_runningSums, foldl_checksumStep_zero]
  · have htail : (busCommand id address).tail = [addressHigh address, addressLow address,
      checksumByte (checksum [busCommandByte id, addressHigh address, addressLow address])] := rfl
    rw [htail] at hb
    simp only [List.mem_cons, List.not_mem_nil, or_false] at hb
    obtain rfl | rfl | rfl := hb
    · exact Codec.highBit_llhSeven _
    · exact Codec.highBit_lllSeven _
    · exact Checksum.highBit_zext8 _

end Sys2Proof.ChecksumRuns
end

section
/-! PROOFS. The inverse packing of a clock acknowledgement, and the bits that unpacking does not read
(spec/44_clock_unpacker.md R134). A gathered byte is fixed by seven bits of one byte and one bit of another; a marker byte
carries two such bits beside its nibble. -/

namespace Sys2Proof.ClockPacking

open Sys2Proof Sys2Proof.Machine Sys2Proof.ClockUnpacker

/-- A byte is its low seven bits and its high bit. -/
theorem eq_of_low7_of_top {x y : Byte} (hlow : x.setWidth 7 = y.setWidth 7) (htop : x[7] = y[7]) : x = y := by
  apply BitVec.eq_of_getElem_eq
  intro i hi
  obtain hlt | rfl := Nat.lt_succ_iff_lt_or_eq.1 hi
  · have hbit := congrArg (·.getLsbD i) hlow
    simpa [hlt, hi] using hbit
  · exact htop

/-- What a gathered byte is made of, and nothing else, decides it (R133). -/
theorem gatherAck_eq_iff (x y a : Byte) {k : Nat} (hk : k ≤ 7) :
    gatherAck x y k = a ↔ x.setWidth 7 = a.setWidth 7 ∧ y.getLsbD (7 - k) = a[7] := by
  rw [← gatherAck_low7 x y k, ← gatherAck_top x y hk]
  exact ⟨fun h => by rw [h]; exact ⟨rfl, rfl⟩, fun ⟨hlow, htop⟩ => eq_of_low7_of_top hlow htop⟩

theorem gatherAck_congr {x y x' y' : Byte} {k : Nat} (hk : k ≤ 7) (hlow : x.setWidth 7 = x'.setWidth 7)
    (hbit : y.getLsbD (7 - k) = y'.getLsbD (7 - k)) : gatherAck x y k = gatherAck x' y' k := by
  rw [gatherAck_eq_iff x y _ hk, gatherAck_low7, gatherAck_top _ _ hk]
  exact ⟨hlow, hbit⟩

/-- Settles O52: the four rebuilt bytes agree, and every other field is read from them. -/
theorem ignoredBitsDoNotMatter : Obligations.IgnoredBitsDoNotMatter := by
  intro p q h1 h2 h4 h5 h04 h05 h34 h35
  have hack0 : gatherAck p.b1 p.b3 3 = gatherAck q.b1 q.b3 3 := gatherAck_congr (by decide) h1 h34
  have hack1 : gatherAck p.b2 p.b3 2 = gatherAck q.b2 q.b3 2 := gatherAck_congr (by decide) h2 h35
  have hack2 : gatherAck p.b4 p.b0 3 = gatherAck q.b4 q.b0 3 := gatherAck_congr (by decide) h4 h04
  have hack3 : gatherAck p.b5 p.b0 2 = gatherAck q.b5 q.b0 2 := gatherAck_congr (by decide) h5 h05
  rw [ackUnpack, ackUnpack, hack0, hack1, hack2, hack3]

/-! ### The bytes of a packed acknowledgement -/

/-- A marker byte: its nibble, the two bits it carries, and a clear high bit. -/
theorem markerByte_bits (x y : Byte) :
    (markerByte x y).setWidth 4 = 0xA ∧ (markerByte x y).getLsbD 4 = x[7] ∧ (markerByte x y).getLsbD 5 = y[7] ∧
      (markerByte x y)[7] = false := by
  have hx : highBit x = x[7] := rfl
  have hy : highBit y = y[7] := rfl
  rw [markerByte, hx, hy]
  generalize x[7] = bit4
  generalize y[7] = bit5
  revert bit4 bit5
  decide

theorem clearTop_low7 : ∀ a : Byte, (a &&& 0x7f).setWidth 7 = a.setWidth 7 := by decide

theorem clearTop_top : ∀ a : Byte, (a &&& 0x7f)[7] = false := by decide

/-- What was packed into a cleared byte and a marker bit is gathered from them. -/
theorem gatherAck_packed {a y : Byte} {k : Nat} (hk : k ≤ 7) (hbit : y.getLsbD (7 - k) = a[7]) :
    gatherAck (a &&& 0x7f) y k = a :=
  (gatherAck_eq_iff _ _ _ hk).2 ⟨clearTop_low7 a, hbit⟩

/-- Settles O51: each of the four bytes is split between a cleared byte and a marker bit. -/
theorem packedAcksUnpack : Obligations.PackedAcksUnpack := by
  rintro a0 a1 a2 a3 b6 p rfl
  obtain ⟨hnib0, hbit2, hbit3, htop0⟩ := markerByte_bits a2 a3
  obtain ⟨hnib3, hbit0, hbit1, htop3⟩ := markerByte_bits a0 a1
  refine ⟨gatherAck_packed (by decide) hbit0, gatherAck_packed (by decide) hbit1, gatherAck_packed (by decide) hbit2,
    gatherAck_packed (by decide) hbit3, (Dispatcher.isAck_iff _ _).2 (.inl hnib0), hnib0, hnib3, fun b hb => ?_⟩
  simp only [bwBytes, ackPack, List.mem_cons, List.not_mem_nil, or_false] at hb
  obtain rfl | rfl | rfl | rfl | rfl | rfl | rfl := hb
  · exact htop0
  · exact clearTop_top a0
  · exact clearTop_top a1
  · exact htop3
  · exact clearTop_top a2
  · exact clearTop_top a3
  · exact Checksum.highBit_zext8 b6

end Sys2Proof.ClockPacking
end
